-- ==== Sys2Proof/Word.lean ====
section
/-! DEFINITION. The word types of SPARC V8 and their plainest arithmetic (00_scope.md R8, R9). -/

namespace Sys2Proof

/-- A byte: 8 bits (R8). -/
abbrev Byte := BitVec 8

/-- A register, address or instruction word: 32 bits (R8). Arithmetic wraps modulo 2^32 (R9). -/
abbrev Word := BitVec 32

/-- A register number as an instruction's rd, rs1 or rs2 field holds it (30_encoding.md R234). -/
abbrev RegNum := BitVec 5

end Sys2Proof
end

