-- ==== Sys2Proof/Syntax.lean ====
section
/-! DEFINITION. The instructions of SPARC V8: one constructor per row of spec/opcode_table.json, in the
table's order. A field that the hardware ignores (30_encoding.md R242) is no operand. -/

namespace Sys2Proof

/-- The second operand of a format-3 instruction (30_encoding.md R246): r[rs2] if i = 0, the
sign-extended simm13 if i = 1. -/
inductive Operand2 where
  | reg (rs2 : RegNum)
  | imm (simm13 : BitVec 13)
  deriving DecidableEq, Repr

/-- The operand of an alternate-space load or store (40_load_store.md R300, R302): asi and rs2 if
i = 0; with i = 1 the instruction is illegal, after the privilege check, and its low bits mean
nothing. -/
inductive AltOperand where
  | reg (asi : BitVec 8) (rs2 : RegNum)
  | imm (low : BitVec 13)
  deriving DecidableEq, Repr

/-- The shift count of SLL, SRL, SRA (41_integer_alu.md section 4): r[rs2] or shcnt. -/
inductive ShiftOperand where
  | reg (rs2 : RegNum)
  | imm (shcnt : BitVec 5)
  deriving DecidableEq, Repr

/-- The second operand of Ticc (42_control_transfer.md R545): r[rs2] or software_trap#. -/
inductive TrapOperand where
  | reg (rs2 : RegNum)
  | imm (number : BitVec 7)
  deriving DecidableEq, Repr

/-- The instructions. -/
inductive Instr where
  /-- LD (R314). -/
  | ld (rd rs1 : RegNum) (o : Operand2)
  /-- LDUB (R312). -/
  | ldub (rd rs1 : RegNum) (o : Operand2)
  /-- LDUH (R313). -/
  | lduh (rd rs1 : RegNum) (o : Operand2)
  /-- LDD (R330). -/
  | ldd (rd rs1 : RegNum) (o : Operand2)
  /-- ST (R348). -/
  | st (rd rs1 : RegNum) (o : Operand2)
  /-- STB (R346). -/
  | stb (rd rs1 : RegNum) (o : Operand2)
  /-- STH (R347). -/
  | sth (rd rs1 : RegNum) (o : Operand2)
  /-- STD (R349). -/
  | std (rd rs1 : RegNum) (o : Operand2)
  /-- LDSB (R310). -/
  | ldsb (rd rs1 : RegNum) (o : Operand2)
  /-- LDSH (R311). -/
  | ldsh (rd rs1 : RegNum) (o : Operand2)
  /-- LDSTUB (R370). -/
  | ldstub (rd rs1 : RegNum) (o : Operand2)
  /-- SWAP (R375). -/
  | swap (rd rs1 : RegNum) (o : Operand2)
  /-- LDA (R324). -/
  | lda (rd rs1 : RegNum) (o : AltOperand)
  /-- LDUBA (R322). -/
  | lduba (rd rs1 : RegNum) (o : AltOperand)
  /-- LDUHA (R323). -/
  | lduha (rd rs1 : RegNum) (o : AltOperand)
  /-- LDDA (R332). -/
  | ldda (rd rs1 : RegNum) (o : AltOperand)
  /-- STA (R352). -/
  | sta (rd rs1 : RegNum) (o : AltOperand)
  /-- STBA (R350). -/
  | stba (rd rs1 : RegNum) (o : AltOperand)
  /-- STHA (R351). -/
  | stha (rd rs1 : RegNum) (o : AltOperand)
  /-- STDA (R353). -/
  | stda (rd rs1 : RegNum) (o : AltOperand)
  /-- LDSBA (R320). -/
  | ldsba (rd rs1 : RegNum) (o : AltOperand)
  /-- LDSHA (R321). -/
  | ldsha (rd rs1 : RegNum) (o : AltOperand)
  /-- LDSTUBA (R371). -/
  | ldstuba (rd rs1 : RegNum) (o : AltOperand)
  /-- SWAPA (R376). -/
  | swapa (rd rs1 : RegNum) (o : AltOperand)
  /-- LDF (R336). -/
  | ldf (rd rs1 : RegNum) (o : Operand2)
  /-- LDFSR (R338). -/
  | ldfsr (rs1 : RegNum) (o : Operand2)
  /-- LDDF (R337). -/
  | lddf (rd rs1 : RegNum) (o : Operand2)
  /-- STF (R356). -/
  | stf (rd rs1 : RegNum) (o : Operand2)
  /-- STFSR (R358). -/
  | stfsr (rs1 : RegNum) (o : Operand2)
  /-- STDFQ (R359). -/
  | stdfq (rs1 : RegNum) (o : Operand2)
  /-- STDF (R357). -/
  | stdf (rd rs1 : RegNum) (o : Operand2)
  /-- LDC (R340). -/
  | ldc (rd rs1 : RegNum) (o : Operand2)
  /-- LDCSR (R342). -/
  | ldcsr (rs1 : RegNum) (o : Operand2)
  /-- LDDC (R341). -/
  | lddc (rd rs1 : RegNum) (o : Operand2)
  /-- STC (R360). -/
  | stc (rd rs1 : RegNum) (o : Operand2)
  /-- STCSR (R362). -/
  | stcsr (rs1 : RegNum) (o : Operand2)
  /-- STDCQ (R363). -/
  | stdcq (rs1 : RegNum) (o : Operand2)
  /-- STDC (R361). -/
  | stdc (rd rs1 : RegNum) (o : Operand2)
  /-- ADD (R430). -/
  | add (rd rs1 : RegNum) (o : Operand2)
  /-- AND (R410). -/
  | and (rd rs1 : RegNum) (o : Operand2)
  /-- OR (R414). -/
  | or (rd rs1 : RegNum) (o : Operand2)
  /-- XOR (R418). -/
  | xor (rd rs1 : RegNum) (o : Operand2)
  /-- SUB (R440). -/
  | sub (rd rs1 : RegNum) (o : Operand2)
  /-- ANDN (R412). -/
  | andn (rd rs1 : RegNum) (o : Operand2)
  /-- ORN (R416). -/
  | orn (rd rs1 : RegNum) (o : Operand2)
  /-- XNOR (R420). -/
  | xnor (rd rs1 : RegNum) (o : Operand2)
  /-- ADDX (R432). -/
  | addx (rd rs1 : RegNum) (o : Operand2)
  /-- UMUL (R455). -/
  | umul (rd rs1 : RegNum) (o : Operand2)
  /-- SMUL (R456). -/
  | smul (rd rs1 : RegNum) (o : Operand2)
  /-- SUBX (R442). -/
  | subx (rd rs1 : RegNum) (o : Operand2)
  /-- UDIV (R461). -/
  | udiv (rd rs1 : RegNum) (o : Operand2)
  /-- SDIV (R462). -/
  | sdiv (rd rs1 : RegNum) (o : Operand2)
  /-- ADDcc (R431). -/
  | addcc (rd rs1 : RegNum) (o : Operand2)
  /-- ANDcc (R411). -/
  | andcc (rd rs1 : RegNum) (o : Operand2)
  /-- ORcc (R415). -/
  | orcc (rd rs1 : RegNum) (o : Operand2)
  /-- XORcc (R419). -/
  | xorcc (rd rs1 : RegNum) (o : Operand2)
  /-- SUBcc (R441). -/
  | subcc (rd rs1 : RegNum) (o : Operand2)
  /-- ANDNcc (R413). -/
  | andncc (rd rs1 : RegNum) (o : Operand2)
  /-- ORNcc (R417). -/
  | orncc (rd rs1 : RegNum) (o : Operand2)
  /-- XNORcc (R421). -/
  | xnorcc (rd rs1 : RegNum) (o : Operand2)
  /-- ADDXcc (R433). -/
  | addxcc (rd rs1 : RegNum) (o : Operand2)
  /-- UMULcc (R457). -/
  | umulcc (rd rs1 : RegNum) (o : Operand2)
  /-- SMULcc (R458). -/
  | smulcc (rd rs1 : RegNum) (o : Operand2)
  /-- SUBXcc (R443). -/
  | subxcc (rd rs1 : RegNum) (o : Operand2)
  /-- UDIVcc (R463). -/
  | udivcc (rd rs1 : RegNum) (o : Operand2)
  /-- SDIVcc (R464). -/
  | sdivcc (rd rs1 : RegNum) (o : Operand2)
  /-- TADDcc (R435). -/
  | taddcc (rd rs1 : RegNum) (o : Operand2)
  /-- TSUBcc (R445). -/
  | tsubcc (rd rs1 : RegNum) (o : Operand2)
  /-- TADDccTV (R436). -/
  | taddcctv (rd rs1 : RegNum) (o : Operand2)
  /-- TSUBccTV (R446). -/
  | tsubcctv (rd rs1 : RegNum) (o : Operand2)
  /-- MULScc (R450). -/
  | mulscc (rd rs1 : RegNum) (o : Operand2)
  /-- SLL (R425). -/
  | sll (rd rs1 : RegNum) (o : ShiftOperand)
  /-- SRL (R426). -/
  | srl (rd rs1 : RegNum) (o : ShiftOperand)
  /-- SRA (R427). -/
  | sra (rd rs1 : RegNum) (o : ShiftOperand)
  /-- STBAR (R580). -/
  | stbar
  /-- RDY (R562). -/
  | rdy (rd : RegNum)
  /-- RDASR (R561). -/
  | rdasr (rd rs1 : RegNum)
  /-- RDPSR (R563). -/
  | rdpsr (rd : RegNum)
  /-- RDWIM (R564). -/
  | rdwim (rd : RegNum)
  /-- RDTBR (R565). -/
  | rdtbr (rd : RegNum)
  /-- WRY (R572). -/
  | wry (rs1 : RegNum) (o : Operand2)
  /-- WRASR (R571). -/
  | wrasr (rd rs1 : RegNum) (o : Operand2)
  /-- WRPSR (R573). -/
  | wrpsr (rs1 : RegNum) (o : Operand2)
  /-- WRWIM (R574). -/
  | wrwim (rs1 : RegNum) (o : Operand2)
  /-- WRTBR (R576). -/
  | wrtbr (rs1 : RegNum) (o : Operand2)
  /-- FMOVs (R635). -/
  | fmovs (rd rs2 : RegNum)
  /-- FNEGs (R636). -/
  | fnegs (rd rs2 : RegNum)
  /-- FABSs (R637). -/
  | fabss (rd rs2 : RegNum)
  /-- FSQRTs (R640). -/
  | fsqrts (rd rs2 : RegNum)
  /-- FSQRTd (R641). -/
  | fsqrtd (rd rs2 : RegNum)
  /-- FSQRTq (R642). -/
  | fsqrtq (rd rs2 : RegNum)
  /-- FADDs (R645). -/
  | fadds (rd rs1 rs2 : RegNum)
  /-- FADDd (R646). -/
  | faddd (rd rs1 rs2 : RegNum)
  /-- FADDq (R647). -/
  | faddq (rd rs1 rs2 : RegNum)
  /-- FSUBs (R648). -/
  | fsubs (rd rs1 rs2 : RegNum)
  /-- FSUBd (R649). -/
  | fsubd (rd rs1 rs2 : RegNum)
  /-- FSUBq (R650). -/
  | fsubq (rd rs1 rs2 : RegNum)
  /-- FMULs (R655). -/
  | fmuls (rd rs1 rs2 : RegNum)
  /-- FMULd (R656). -/
  | fmuld (rd rs1 rs2 : RegNum)
  /-- FMULq (R657). -/
  | fmulq (rd rs1 rs2 : RegNum)
  /-- FDIVs (R660). -/
  | fdivs (rd rs1 rs2 : RegNum)
  /-- FDIVd (R661). -/
  | fdivd (rd rs1 rs2 : RegNum)
  /-- FDIVq (R662). -/
  | fdivq (rd rs1 rs2 : RegNum)
  /-- FsMULd (R658). -/
  | fsmuld (rd rs1 rs2 : RegNum)
  /-- FdMULq (R659). -/
  | fdmulq (rd rs1 rs2 : RegNum)
  /-- FiTOs (R615). -/
  | fitos (rd rs2 : RegNum)
  /-- FdTOs (R627). -/
  | fdtos (rd rs2 : RegNum)
  /-- FqTOs (R629). -/
  | fqtos (rd rs2 : RegNum)
  /-- FiTOd (R616). -/
  | fitod (rd rs2 : RegNum)
  /-- FsTOd (R625). -/
  | fstod (rd rs2 : RegNum)
  /-- FqTOd (R630). -/
  | fqtod (rd rs2 : RegNum)
  /-- FiTOq (R617). -/
  | fitoq (rd rs2 : RegNum)
  /-- FsTOq (R626). -/
  | fstoq (rd rs2 : RegNum)
  /-- FdTOq (R628). -/
  | fdtoq (rd rs2 : RegNum)
  /-- FsTOi (R620). -/
  | fstoi (rd rs2 : RegNum)
  /-- FdTOi (R621). -/
  | fdtoi (rd rs2 : RegNum)
  /-- FqTOi (R622). -/
  | fqtoi (rd rs2 : RegNum)
  /-- FCMPs (R665). -/
  | fcmps (rs1 rs2 : RegNum)
  /-- FCMPd (R666). -/
  | fcmpd (rs1 rs2 : RegNum)
  /-- FCMPq (R667). -/
  | fcmpq (rs1 rs2 : RegNum)
  /-- FCMPEs (R668). -/
  | fcmpes (rs1 rs2 : RegNum)
  /-- FCMPEd (R669). -/
  | fcmped (rs1 rs2 : RegNum)
  /-- FCMPEq (R670). -/
  | fcmpeq (rs1 rs2 : RegNum)
  /-- FPop1__unassigned_opf (R603). -/
  | fpop1Unassigned (rd rs1 : RegNum) (opf : BitVec 9) (rs2 : RegNum)
  /-- FPop2__unassigned_opf (R603). -/
  | fpop2Unassigned (rd rs1 : RegNum) (opf : BitVec 9) (rs2 : RegNum)
  /-- CPop1 (R680). -/
  | cpop1 (rd rs1 : RegNum) (opc : BitVec 9) (rs2 : RegNum)
  /-- CPop2 (R681). -/
  | cpop2 (rd rs1 : RegNum) (opc : BitVec 9) (rs2 : RegNum)
  /-- JMPL (R535). -/
  | jmpl (rd rs1 : RegNum) (o : Operand2)
  /-- RETT (R540). -/
  | rett (rs1 : RegNum) (o : Operand2)
  /-- tn (R545). -/
  | tn (rs1 : RegNum) (o : TrapOperand)
  /-- te (R545). -/
  | te (rs1 : RegNum) (o : TrapOperand)
  /-- tle (R545). -/
  | tle (rs1 : RegNum) (o : TrapOperand)
  /-- tl (R545). -/
  | tl (rs1 : RegNum) (o : TrapOperand)
  /-- tleu (R545). -/
  | tleu (rs1 : RegNum) (o : TrapOperand)
  /-- tcs (R545). -/
  | tcs (rs1 : RegNum) (o : TrapOperand)
  /-- tneg (R545). -/
  | tneg (rs1 : RegNum) (o : TrapOperand)
  /-- tvs (R545). -/
  | tvs (rs1 : RegNum) (o : TrapOperand)
  /-- ta (R545). -/
  | ta (rs1 : RegNum) (o : TrapOperand)
  /-- tne (R545). -/
  | tne (rs1 : RegNum) (o : TrapOperand)
  /-- tg (R545). -/
  | tg (rs1 : RegNum) (o : TrapOperand)
  /-- tge (R545). -/
  | tge (rs1 : RegNum) (o : TrapOperand)
  /-- tgu (R545). -/
  | tgu (rs1 : RegNum) (o : TrapOperand)
  /-- tcc (R545). -/
  | tcc (rs1 : RegNum) (o : TrapOperand)
  /-- tpos (R545). -/
  | tpos (rs1 : RegNum) (o : TrapOperand)
  /-- tvc (R545). -/
  | tvc (rs1 : RegNum) (o : TrapOperand)
  /-- FLUSH (R590). -/
  | flush (rs1 : RegNum) (o : Operand2)
  /-- SAVE (R525). -/
  | save (rd rs1 : RegNum) (o : Operand2)
  /-- RESTORE (R526). -/
  | restore (rd rs1 : RegNum) (o : Operand2)
  /-- CALL (R530). -/
  | call (disp : BitVec 30)
  /-- UNIMP (R585). -/
  | unimp (const : BitVec 22)
  /-- NOP (R406). -/
  | nop
  /-- SETHI (R405). -/
  | sethi (rd : RegNum) (imm : BitVec 22)
  /-- bn (R510). -/
  | bn (a : Bool) (disp : BitVec 22)
  /-- be (R510). -/
  | be (a : Bool) (disp : BitVec 22)
  /-- ble (R510). -/
  | ble (a : Bool) (disp : BitVec 22)
  /-- bl (R510). -/
  | bl (a : Bool) (disp : BitVec 22)
  /-- bleu (R510). -/
  | bleu (a : Bool) (disp : BitVec 22)
  /-- bcs (R510). -/
  | bcs (a : Bool) (disp : BitVec 22)
  /-- bneg (R510). -/
  | bneg (a : Bool) (disp : BitVec 22)
  /-- bvs (R510). -/
  | bvs (a : Bool) (disp : BitVec 22)
  /-- ba (R510). -/
  | ba (a : Bool) (disp : BitVec 22)
  /-- bne (R510). -/
  | bne (a : Bool) (disp : BitVec 22)
  /-- bg (R510). -/
  | bg (a : Bool) (disp : BitVec 22)
  /-- bge (R510). -/
  | bge (a : Bool) (disp : BitVec 22)
  /-- bgu (R510). -/
  | bgu (a : Bool) (disp : BitVec 22)
  /-- bcc (R510). -/
  | bcc (a : Bool) (disp : BitVec 22)
  /-- bpos (R510). -/
  | bpos (a : Bool) (disp : BitVec 22)
  /-- bvc (R510). -/
  | bvc (a : Bool) (disp : BitVec 22)
  /-- fbn (R515). -/
  | fbn (a : Bool) (disp : BitVec 22)
  /-- fbne (R515). -/
  | fbne (a : Bool) (disp : BitVec 22)
  /-- fblg (R515). -/
  | fblg (a : Bool) (disp : BitVec 22)
  /-- fbul (R515). -/
  | fbul (a : Bool) (disp : BitVec 22)
  /-- fbl (R515). -/
  | fbl (a : Bool) (disp : BitVec 22)
  /-- fbug (R515). -/
  | fbug (a : Bool) (disp : BitVec 22)
  /-- fbg (R515). -/
  | fbg (a : Bool) (disp : BitVec 22)
  /-- fbu (R515). -/
  | fbu (a : Bool) (disp : BitVec 22)
  /-- fba (R515). -/
  | fba (a : Bool) (disp : BitVec 22)
  /-- fbe (R515). -/
  | fbe (a : Bool) (disp : BitVec 22)
  /-- fbue (R515). -/
  | fbue (a : Bool) (disp : BitVec 22)
  /-- fbge (R515). -/
  | fbge (a : Bool) (disp : BitVec 22)
  /-- fbuge (R515). -/
  | fbuge (a : Bool) (disp : BitVec 22)
  /-- fble (R515). -/
  | fble (a : Bool) (disp : BitVec 22)
  /-- fbule (R515). -/
  | fbule (a : Bool) (disp : BitVec 22)
  /-- fbo (R515). -/
  | fbo (a : Bool) (disp : BitVec 22)
  /-- cbn (R520). -/
  | cbn (a : Bool) (disp : BitVec 22)
  /-- cb123 (R520). -/
  | cb123 (a : Bool) (disp : BitVec 22)
  /-- cb12 (R520). -/
  | cb12 (a : Bool) (disp : BitVec 22)
  /-- cb13 (R520). -/
  | cb13 (a : Bool) (disp : BitVec 22)
  /-- cb1 (R520). -/
  | cb1 (a : Bool) (disp : BitVec 22)
  /-- cb23 (R520). -/
  | cb23 (a : Bool) (disp : BitVec 22)
  /-- cb2 (R520). -/
  | cb2 (a : Bool) (disp : BitVec 22)
  /-- cb3 (R520). -/
  | cb3 (a : Bool) (disp : BitVec 22)
  /-- cba (R520). -/
  | cba (a : Bool) (disp : BitVec 22)
  /-- cb0 (R520). -/
  | cb0 (a : Bool) (disp : BitVec 22)
  /-- cb03 (R520). -/
  | cb03 (a : Bool) (disp : BitVec 22)
  /-- cb02 (R520). -/
  | cb02 (a : Bool) (disp : BitVec 22)
  /-- cb023 (R520). -/
  | cb023 (a : Bool) (disp : BitVec 22)
  /-- cb01 (R520). -/
  | cb01 (a : Bool) (disp : BitVec 22)
  /-- cb013 (R520). -/
  | cb013 (a : Bool) (disp : BitVec 22)
  /-- cb012 (R520). -/
  | cb012 (a : Bool) (disp : BitVec 22)
  /-- unassigned_op2___1__3__5 (R236). -/
  | unassignedOp2 (op2 : BitVec 3)
  /-- unassigned_op3__op___2 (R242). -/
  | unassignedOp3Arith (op3 : BitVec 6)
  /-- unassigned_op3__op___3 (R242). -/
  | unassignedOp3Mem (op3 : BitVec 6)
  deriving DecidableEq, Repr

end Sys2Proof
end

