-- ==== Sys2Proof/Decode.lean ====
section
/-! DEFINITION. The decoder and the encoder (30_encoding.md). A word is first cut into the fields of
its format (R231 to R234, `unpack`); the fields then name the instruction (R235 to R241). Every 32-bit
word names one: the patterns that stand for no instruction are rows of the table too (R242). The
decoder refuses only an instruction that is cut short. -/

namespace Sys2Proof

/-- The three formats (30_encoding.md R231, R232, R233). `fmt2` holds bits 29:25, op2, bits 21:0;
`fmt3` holds whether op is 3, then rd, op3, rs1 and bits 13:0. -/
inductive Format where
  | call (disp : BitVec 30)
  | fmt2 (top : BitVec 5) (op2 : BitVec 3) (imm : BitVec 22)
  | fmt3 (mem : Bool) (rd : RegNum) (op3 : BitVec 6) (rs1 : RegNum) (low : BitVec 14)
  deriving DecidableEq, Repr

/-- The fields of a word by its op, bits 31:30 (30_encoding.md R234, R235). -/
def unpack (w : Word) : Format :=
  if w.extractLsb' 30 2 = 1#2 then .call (w.extractLsb' 0 30)
  else if w.extractLsb' 30 2 = 0#2 then
    .fmt2 (w.extractLsb' 25 5) (w.extractLsb' 22 3) (w.extractLsb' 0 22)
  else
    .fmt3 (w.extractLsb' 30 2 == 3#2) (w.extractLsb' 25 5) (w.extractLsb' 19 6)
      (w.extractLsb' 14 5) (w.extractLsb' 0 14)

/-- The word with these fields. -/
def pack : Format → Word
  | .call d => (1#2 ++ d : BitVec (2 + 30))
  | .fmt2 top op2 imm => (0#2 ++ top ++ op2 ++ imm : BitVec (2 + 5 + 3 + 22))
  | .fmt3 mem rd op3 rs1 low =>
    ((if mem then 3#2 else 2#2) ++ rd ++ op3 ++ rs1 ++ low : BitVec (2 + 5 + 6 + 5 + 14))

/-- Bits 13:0 as i and rs2 or simm13 (30_encoding.md R233, R246). -/
def decodeOperand2 (low : BitVec 14) : Operand2 :=
  if low.extractLsb' 13 1 = 1#1 then .imm (low.extractLsb' 0 13) else .reg (low.extractLsb' 0 5)

/-- Bits 13:0 of an alternate-space instruction (30_encoding.md R233; 40_load_store.md R302). -/
def decodeAlt (low : BitVec 14) : AltOperand :=
  if low.extractLsb' 13 1 = 1#1 then .imm (low.extractLsb' 0 13)
  else .reg (low.extractLsb' 5 8) (low.extractLsb' 0 5)

/-- Bits 13:0 of a shift; bits 12:5 are ignored (41_integer_alu.md section 4). -/
def decodeShift (low : BitVec 14) : ShiftOperand :=
  if low.extractLsb' 13 1 = 1#1 then .imm (low.extractLsb' 0 5) else .reg (low.extractLsb' 0 5)

/-- Bits 13:0 of Ticc: with i = 1 bits 6:0 are the number (42_control_transfer.md R545). -/
def decodeTrapOperand (low : BitVec 14) : TrapOperand :=
  if low.extractLsb' 13 1 = 1#1 then .imm (low.extractLsb' 0 7) else .reg (low.extractLsb' 0 5)

/-- Bits 13:0 of an `Operand2`; the ignored bits are zero. -/
def encodeOperand2 : Operand2 → BitVec 14
  | .reg rs2 => (0#1 ++ 0#8 ++ rs2 : BitVec (1 + 8 + 5))
  | .imm v => (1#1 ++ v : BitVec (1 + 13))

/-- Bits 13:0 of an `AltOperand`. -/
def encodeAlt : AltOperand → BitVec 14
  | .reg asi rs2 => (0#1 ++ asi ++ rs2 : BitVec (1 + 8 + 5))
  | .imm v => (1#1 ++ v : BitVec (1 + 13))

/-- Bits 13:0 of a `ShiftOperand`. -/
def encodeShift : ShiftOperand → BitVec 14
  | .reg rs2 => (0#1 ++ 0#8 ++ rs2 : BitVec (1 + 8 + 5))
  | .imm v => (1#1 ++ 0#8 ++ v : BitVec (1 + 8 + 5))

/-- Bits 13:0 of a `TrapOperand`. -/
def encodeTrapOperand : TrapOperand → BitVec 14
  | .reg rs2 => (0#1 ++ 0#8 ++ rs2 : BitVec (1 + 8 + 5))
  | .imm v => (1#1 ++ 0#6 ++ v : BitVec (1 + 6 + 7))

/-- Bicc by cond (30_encoding.md R241). -/
def decodeBicc (cond : BitVec 4) (a : Bool) (d : BitVec 22) : Instr :=
  match cond.toNat with
  | 0 => .bn a d
  | 1 => .be a d
  | 2 => .ble a d
  | 3 => .bl a d
  | 4 => .bleu a d
  | 5 => .bcs a d
  | 6 => .bneg a d
  | 7 => .bvs a d
  | 8 => .ba a d
  | 9 => .bne a d
  | 10 => .bg a d
  | 11 => .bge a d
  | 12 => .bgu a d
  | 13 => .bcc a d
  | 14 => .bpos a d
  | _ => .bvc a d

/-- FBfcc by cond (30_encoding.md R241). -/
def decodeFBfcc (cond : BitVec 4) (a : Bool) (d : BitVec 22) : Instr :=
  match cond.toNat with
  | 0 => .fbn a d
  | 1 => .fbne a d
  | 2 => .fblg a d
  | 3 => .fbul a d
  | 4 => .fbl a d
  | 5 => .fbug a d
  | 6 => .fbg a d
  | 7 => .fbu a d
  | 8 => .fba a d
  | 9 => .fbe a d
  | 10 => .fbue a d
  | 11 => .fbge a d
  | 12 => .fbuge a d
  | 13 => .fble a d
  | 14 => .fbule a d
  | _ => .fbo a d

/-- CBccc by cond (30_encoding.md R241). -/
def decodeCBccc (cond : BitVec 4) (a : Bool) (d : BitVec 22) : Instr :=
  match cond.toNat with
  | 0 => .cbn a d
  | 1 => .cb123 a d
  | 2 => .cb12 a d
  | 3 => .cb13 a d
  | 4 => .cb1 a d
  | 5 => .cb23 a d
  | 6 => .cb2 a d
  | 7 => .cb3 a d
  | 8 => .cba a d
  | 9 => .cb0 a d
  | 10 => .cb03 a d
  | 11 => .cb02 a d
  | 12 => .cb023 a d
  | 13 => .cb01 a d
  | 14 => .cb013 a d
  | _ => .cb012 a d

/-- Ticc by cond (30_encoding.md R241). -/
def decodeTicc (cond : BitVec 4) (rs1 : RegNum) (o : TrapOperand) : Instr :=
  match cond.toNat with
  | 0 => .tn rs1 o
  | 1 => .te rs1 o
  | 2 => .tle rs1 o
  | 3 => .tl rs1 o
  | 4 => .tleu rs1 o
  | 5 => .tcs rs1 o
  | 6 => .tneg rs1 o
  | 7 => .tvs rs1 o
  | 8 => .ta rs1 o
  | 9 => .tne rs1 o
  | 10 => .tg rs1 o
  | 11 => .tge rs1 o
  | 12 => .tgu rs1 o
  | 13 => .tcc rs1 o
  | 14 => .tpos rs1 o
  | _ => .tvc rs1 o

/-- FPop1 by opf (30_encoding.md R239; 44_fpop.md R603). -/
def decodeFpop1 (rd rs1 : RegNum) (opf : BitVec 9) (rs2 : RegNum) : Instr :=
  match opf.toNat with
  | 0x001 => .fmovs rd rs2
  | 0x005 => .fnegs rd rs2
  | 0x009 => .fabss rd rs2
  | 0x029 => .fsqrts rd rs2
  | 0x02A => .fsqrtd rd rs2
  | 0x02B => .fsqrtq rd rs2
  | 0x041 => .fadds rd rs1 rs2
  | 0x042 => .faddd rd rs1 rs2
  | 0x043 => .faddq rd rs1 rs2
  | 0x045 => .fsubs rd rs1 rs2
  | 0x046 => .fsubd rd rs1 rs2
  | 0x047 => .fsubq rd rs1 rs2
  | 0x049 => .fmuls rd rs1 rs2
  | 0x04A => .fmuld rd rs1 rs2
  | 0x04B => .fmulq rd rs1 rs2
  | 0x04D => .fdivs rd rs1 rs2
  | 0x04E => .fdivd rd rs1 rs2
  | 0x04F => .fdivq rd rs1 rs2
  | 0x069 => .fsmuld rd rs1 rs2
  | 0x06E => .fdmulq rd rs1 rs2
  | 0x0C4 => .fitos rd rs2
  | 0x0C6 => .fdtos rd rs2
  | 0x0C7 => .fqtos rd rs2
  | 0x0C8 => .fitod rd rs2
  | 0x0C9 => .fstod rd rs2
  | 0x0CB => .fqtod rd rs2
  | 0x0CC => .fitoq rd rs2
  | 0x0CD => .fstoq rd rs2
  | 0x0CE => .fdtoq rd rs2
  | 0x0D1 => .fstoi rd rs2
  | 0x0D2 => .fdtoi rd rs2
  | 0x0D3 => .fqtoi rd rs2
  | _ => .fpop1Unassigned rd rs1 opf rs2

/-- FPop2 by opf (30_encoding.md R240; 44_fpop.md R603). -/
def decodeFpop2 (rd rs1 : RegNum) (opf : BitVec 9) (rs2 : RegNum) : Instr :=
  match opf.toNat with
  | 0x051 => .fcmps rs1 rs2
  | 0x052 => .fcmpd rs1 rs2
  | 0x053 => .fcmpq rs1 rs2
  | 0x055 => .fcmpes rs1 rs2
  | 0x056 => .fcmped rs1 rs2
  | 0x057 => .fcmpeq rs1 rs2
  | _ => .fpop2Unassigned rd rs1 opf rs2

/-- Format 2 by op2 (30_encoding.md R236). -/
def decodeFmt2 (top : BitVec 5) (op2 : BitVec 3) (imm : BitVec 22) : Instr :=
  match op2.toNat with
  | 0 => .unimp imm
  | 2 => decodeBicc (top.extractLsb' 0 4) (top.extractLsb' 4 1 == 1#1) imm
  | 4 => if top = 0#5 ∧ imm = 0#22 then .nop else .sethi top imm
  | 6 => decodeFBfcc (top.extractLsb' 0 4) (top.extractLsb' 4 1 == 1#1) imm
  | 7 => decodeCBccc (top.extractLsb' 0 4) (top.extractLsb' 4 1 == 1#1) imm
  | _ => .unassignedOp2 op2

/-- Format 3 with op = 2 by op3 (30_encoding.md R237; RDY, RDASR and STBAR: 43_state_regs_misc.md
R561, R562, R580; WRY and WRASR: R571, R572). STBAR's bits 13:0 are ignored (R580; log 28). -/
def decodeArith (rd : RegNum) (op3 : BitVec 6) (rs1 : RegNum) (low : BitVec 14) : Instr :=
  match op3.toNat with
  | 0x00 => .add rd rs1 (decodeOperand2 low)
  | 0x01 => .and rd rs1 (decodeOperand2 low)
  | 0x02 => .or rd rs1 (decodeOperand2 low)
  | 0x03 => .xor rd rs1 (decodeOperand2 low)
  | 0x04 => .sub rd rs1 (decodeOperand2 low)
  | 0x05 => .andn rd rs1 (decodeOperand2 low)
  | 0x06 => .orn rd rs1 (decodeOperand2 low)
  | 0x07 => .xnor rd rs1 (decodeOperand2 low)
  | 0x08 => .addx rd rs1 (decodeOperand2 low)
  | 0x0A => .umul rd rs1 (decodeOperand2 low)
  | 0x0B => .smul rd rs1 (decodeOperand2 low)
  | 0x0C => .subx rd rs1 (decodeOperand2 low)
  | 0x0E => .udiv rd rs1 (decodeOperand2 low)
  | 0x0F => .sdiv rd rs1 (decodeOperand2 low)
  | 0x10 => .addcc rd rs1 (decodeOperand2 low)
  | 0x11 => .andcc rd rs1 (decodeOperand2 low)
  | 0x12 => .orcc rd rs1 (decodeOperand2 low)
  | 0x13 => .xorcc rd rs1 (decodeOperand2 low)
  | 0x14 => .subcc rd rs1 (decodeOperand2 low)
  | 0x15 => .andncc rd rs1 (decodeOperand2 low)
  | 0x16 => .orncc rd rs1 (decodeOperand2 low)
  | 0x17 => .xnorcc rd rs1 (decodeOperand2 low)
  | 0x18 => .addxcc rd rs1 (decodeOperand2 low)
  | 0x1A => .umulcc rd rs1 (decodeOperand2 low)
  | 0x1B => .smulcc rd rs1 (decodeOperand2 low)
  | 0x1C => .subxcc rd rs1 (decodeOperand2 low)
  | 0x1E => .udivcc rd rs1 (decodeOperand2 low)
  | 0x1F => .sdivcc rd rs1 (decodeOperand2 low)
  | 0x20 => .taddcc rd rs1 (decodeOperand2 low)
  | 0x21 => .tsubcc rd rs1 (decodeOperand2 low)
  | 0x22 => .taddcctv rd rs1 (decodeOperand2 low)
  | 0x23 => .tsubcctv rd rs1 (decodeOperand2 low)
  | 0x24 => .mulscc rd rs1 (decodeOperand2 low)
  | 0x25 => .sll rd rs1 (decodeShift low)
  | 0x26 => .srl rd rs1 (decodeShift low)
  | 0x27 => .sra rd rs1 (decodeShift low)
  | 0x28 => if rs1 = 0#5 then .rdy rd else if rs1 = 15#5 ∧ rd = 0#5 then .stbar else .rdasr rd rs1
  | 0x29 => .rdpsr rd
  | 0x2A => .rdwim rd
  | 0x2B => .rdtbr rd
  | 0x30 => if rd = 0#5 then .wry rs1 (decodeOperand2 low) else .wrasr rd rs1 (decodeOperand2 low)
  | 0x31 => .wrpsr rs1 (decodeOperand2 low)
  | 0x32 => .wrwim rs1 (decodeOperand2 low)
  | 0x33 => .wrtbr rs1 (decodeOperand2 low)
  | 0x34 => decodeFpop1 rd rs1 (low.extractLsb' 5 9) (low.extractLsb' 0 5)
  | 0x35 => decodeFpop2 rd rs1 (low.extractLsb' 5 9) (low.extractLsb' 0 5)
  | 0x36 => .cpop1 rd rs1 (low.extractLsb' 5 9) (low.extractLsb' 0 5)
  | 0x37 => .cpop2 rd rs1 (low.extractLsb' 5 9) (low.extractLsb' 0 5)
  | 0x38 => .jmpl rd rs1 (decodeOperand2 low)
  | 0x39 => .rett rs1 (decodeOperand2 low)
  | 0x3A => decodeTicc (rd.extractLsb' 0 4) rs1 (decodeTrapOperand low)
  | 0x3B => .flush rs1 (decodeOperand2 low)
  | 0x3C => .save rd rs1 (decodeOperand2 low)
  | 0x3D => .restore rd rs1 (decodeOperand2 low)
  | _ => .unassignedOp3Arith op3

/-- Format 3 with op = 3 by op3 (30_encoding.md R238). -/
def decodeMem (rd : RegNum) (op3 : BitVec 6) (rs1 : RegNum) (low : BitVec 14) : Instr :=
  match op3.toNat with
  | 0x00 => .ld rd rs1 (decodeOperand2 low)
  | 0x01 => .ldub rd rs1 (decodeOperand2 low)
  | 0x02 => .lduh rd rs1 (decodeOperand2 low)
  | 0x03 => .ldd rd rs1 (decodeOperand2 low)
  | 0x04 => .st rd rs1 (decodeOperand2 low)
  | 0x05 => .stb rd rs1 (decodeOperand2 low)
  | 0x06 => .sth rd rs1 (decodeOperand2 low)
  | 0x07 => .std rd rs1 (decodeOperand2 low)
  | 0x09 => .ldsb rd rs1 (decodeOperand2 low)
  | 0x0A => .ldsh rd rs1 (decodeOperand2 low)
  | 0x0D => .ldstub rd rs1 (decodeOperand2 low)
  | 0x0F => .swap rd rs1 (decodeOperand2 low)
  | 0x10 => .lda rd rs1 (decodeAlt low)
  | 0x11 => .lduba rd rs1 (decodeAlt low)
  | 0x12 => .lduha rd rs1 (decodeAlt low)
  | 0x13 => .ldda rd rs1 (decodeAlt low)
  | 0x14 => .sta rd rs1 (decodeAlt low)
  | 0x15 => .stba rd rs1 (decodeAlt low)
  | 0x16 => .stha rd rs1 (decodeAlt low)
  | 0x17 => .stda rd rs1 (decodeAlt low)
  | 0x19 => .ldsba rd rs1 (decodeAlt low)
  | 0x1A => .ldsha rd rs1 (decodeAlt low)
  | 0x1D => .ldstuba rd rs1 (decodeAlt low)
  | 0x1F => .swapa rd rs1 (decodeAlt low)
  | 0x20 => .ldf rd rs1 (decodeOperand2 low)
  | 0x21 => .ldfsr rs1 (decodeOperand2 low)
  | 0x23 => .lddf rd rs1 (decodeOperand2 low)
  | 0x24 => .stf rd rs1 (decodeOperand2 low)
  | 0x25 => .stfsr rs1 (decodeOperand2 low)
  | 0x26 => .stdfq rs1 (decodeOperand2 low)
  | 0x27 => .stdf rd rs1 (decodeOperand2 low)
  | 0x30 => .ldc rd rs1 (decodeOperand2 low)
  | 0x31 => .ldcsr rs1 (decodeOperand2 low)
  | 0x33 => .lddc rd rs1 (decodeOperand2 low)
  | 0x34 => .stc rd rs1 (decodeOperand2 low)
  | 0x35 => .stcsr rs1 (decodeOperand2 low)
  | 0x36 => .stdcq rs1 (decodeOperand2 low)
  | 0x37 => .stdc rd rs1 (decodeOperand2 low)
  | _ => .unassignedOp3Mem op3

/-- The instruction of a word's fields (30_encoding.md R235). -/
def decodeFormat : Format → Instr
  | .call d => .call d
  | .fmt2 top op2 imm => decodeFmt2 top op2 imm
  | .fmt3 mem rd op3 rs1 low =>
    if mem then decodeMem rd op3 rs1 low else decodeArith rd op3 rs1 low

/-- The instruction of a word. -/
def decodeWord (w : Word) : Instr := decodeFormat (unpack w)

/-- Why the decoder refuses bytes. -/
inductive DecodeError where
  /-- Fewer than four bytes are left: every instruction is one 32-bit word (30_encoding.md R230). -/
  | truncated
  deriving DecidableEq, Repr

/-- The word of four bytes, the most significant at the lowest address (20_memory.md R101). -/
def wordOfBytes (b0 b1 b2 b3 : Byte) : Word := (b0 ++ b1 ++ b2 ++ b3 : BitVec (8 + 8 + 8 + 8))

/-- The four bytes of a word in memory order (20_memory.md R101). -/
def bytesOfWord (w : Word) : List Byte :=
  [w.extractLsb' 24 8, w.extractLsb' 16 8, w.extractLsb' 8 8, w.extractLsb' 0 8]

/-- The instruction at the head of a list of bytes, with the bytes after it. -/
def decode : List Byte → Except DecodeError (Instr × List Byte)
  | b0 :: b1 :: b2 :: b3 :: rest => .ok (decodeWord (wordOfBytes b0 b1 b2 b3), rest)
  | _ => .error .truncated

/-- The fields of an instruction's word; ignored fields are zero. -/
def encodeFormat : Instr → Format
  | .ld rd rs1 o => .fmt3 true rd 0x00#6 rs1 (encodeOperand2 o)
  | .ldub rd rs1 o => .fmt3 true rd 0x01#6 rs1 (encodeOperand2 o)
  | .lduh rd rs1 o => .fmt3 true rd 0x02#6 rs1 (encodeOperand2 o)
  | .ldd rd rs1 o => .fmt3 true rd 0x03#6 rs1 (encodeOperand2 o)
  | .st rd rs1 o => .fmt3 true rd 0x04#6 rs1 (encodeOperand2 o)
  | .stb rd rs1 o => .fmt3 true rd 0x05#6 rs1 (encodeOperand2 o)
  | .sth rd rs1 o => .fmt3 true rd 0x06#6 rs1 (encodeOperand2 o)
  | .std rd rs1 o => .fmt3 true rd 0x07#6 rs1 (encodeOperand2 o)
  | .ldsb rd rs1 o => .fmt3 true rd 0x09#6 rs1 (encodeOperand2 o)
  | .ldsh rd rs1 o => .fmt3 true rd 0x0A#6 rs1 (encodeOperand2 o)
  | .ldstub rd rs1 o => .fmt3 true rd 0x0D#6 rs1 (encodeOperand2 o)
  | .swap rd rs1 o => .fmt3 true rd 0x0F#6 rs1 (encodeOperand2 o)
  | .lda rd rs1 o => .fmt3 true rd 0x10#6 rs1 (encodeAlt o)
  | .lduba rd rs1 o => .fmt3 true rd 0x11#6 rs1 (encodeAlt o)
  | .lduha rd rs1 o => .fmt3 true rd 0x12#6 rs1 (encodeAlt o)
  | .ldda rd rs1 o => .fmt3 true rd 0x13#6 rs1 (encodeAlt o)
  | .sta rd rs1 o => .fmt3 true rd 0x14#6 rs1 (encodeAlt o)
  | .stba rd rs1 o => .fmt3 true rd 0x15#6 rs1 (encodeAlt o)
  | .stha rd rs1 o => .fmt3 true rd 0x16#6 rs1 (encodeAlt o)
  | .stda rd rs1 o => .fmt3 true rd 0x17#6 rs1 (encodeAlt o)
  | .ldsba rd rs1 o => .fmt3 true rd 0x19#6 rs1 (encodeAlt o)
  | .ldsha rd rs1 o => .fmt3 true rd 0x1A#6 rs1 (encodeAlt o)
  | .ldstuba rd rs1 o => .fmt3 true rd 0x1D#6 rs1 (encodeAlt o)
  | .swapa rd rs1 o => .fmt3 true rd 0x1F#6 rs1 (encodeAlt o)
  | .ldf rd rs1 o => .fmt3 true rd 0x20#6 rs1 (encodeOperand2 o)
  | .ldfsr rs1 o => .fmt3 true 0#5 0x21#6 rs1 (encodeOperand2 o)
  | .lddf rd rs1 o => .fmt3 true rd 0x23#6 rs1 (encodeOperand2 o)
  | .stf rd rs1 o => .fmt3 true rd 0x24#6 rs1 (encodeOperand2 o)
  | .stfsr rs1 o => .fmt3 true 0#5 0x25#6 rs1 (encodeOperand2 o)
  | .stdfq rs1 o => .fmt3 true 0#5 0x26#6 rs1 (encodeOperand2 o)
  | .stdf rd rs1 o => .fmt3 true rd 0x27#6 rs1 (encodeOperand2 o)
  | .ldc rd rs1 o => .fmt3 true rd 0x30#6 rs1 (encodeOperand2 o)
  | .ldcsr rs1 o => .fmt3 true 0#5 0x31#6 rs1 (encodeOperand2 o)
  | .lddc rd rs1 o => .fmt3 true rd 0x33#6 rs1 (encodeOperand2 o)
  | .stc rd rs1 o => .fmt3 true rd 0x34#6 rs1 (encodeOperand2 o)
  | .stcsr rs1 o => .fmt3 true 0#5 0x35#6 rs1 (encodeOperand2 o)
  | .stdcq rs1 o => .fmt3 true 0#5 0x36#6 rs1 (encodeOperand2 o)
  | .stdc rd rs1 o => .fmt3 true rd 0x37#6 rs1 (encodeOperand2 o)
  | .add rd rs1 o => .fmt3 false rd 0x00#6 rs1 (encodeOperand2 o)
  | .and rd rs1 o => .fmt3 false rd 0x01#6 rs1 (encodeOperand2 o)
  | .or rd rs1 o => .fmt3 false rd 0x02#6 rs1 (encodeOperand2 o)
  | .xor rd rs1 o => .fmt3 false rd 0x03#6 rs1 (encodeOperand2 o)
  | .sub rd rs1 o => .fmt3 false rd 0x04#6 rs1 (encodeOperand2 o)
  | .andn rd rs1 o => .fmt3 false rd 0x05#6 rs1 (encodeOperand2 o)
  | .orn rd rs1 o => .fmt3 false rd 0x06#6 rs1 (encodeOperand2 o)
  | .xnor rd rs1 o => .fmt3 false rd 0x07#6 rs1 (encodeOperand2 o)
  | .addx rd rs1 o => .fmt3 false rd 0x08#6 rs1 (encodeOperand2 o)
  | .umul rd rs1 o => .fmt3 false rd 0x0A#6 rs1 (encodeOperand2 o)
  | .smul rd rs1 o => .fmt3 false rd 0x0B#6 rs1 (encodeOperand2 o)
  | .subx rd rs1 o => .fmt3 false rd 0x0C#6 rs1 (encodeOperand2 o)
  | .udiv rd rs1 o => .fmt3 false rd 0x0E#6 rs1 (encodeOperand2 o)
  | .sdiv rd rs1 o => .fmt3 false rd 0x0F#6 rs1 (encodeOperand2 o)
  | .addcc rd rs1 o => .fmt3 false rd 0x10#6 rs1 (encodeOperand2 o)
  | .andcc rd rs1 o => .fmt3 false rd 0x11#6 rs1 (encodeOperand2 o)
  | .orcc rd rs1 o => .fmt3 false rd 0x12#6 rs1 (encodeOperand2 o)
  | .xorcc rd rs1 o => .fmt3 false rd 0x13#6 rs1 (encodeOperand2 o)
  | .subcc rd rs1 o => .fmt3 false rd 0x14#6 rs1 (encodeOperand2 o)
  | .andncc rd rs1 o => .fmt3 false rd 0x15#6 rs1 (encodeOperand2 o)
  | .orncc rd rs1 o => .fmt3 false rd 0x16#6 rs1 (encodeOperand2 o)
  | .xnorcc rd rs1 o => .fmt3 false rd 0x17#6 rs1 (encodeOperand2 o)
  | .addxcc rd rs1 o => .fmt3 false rd 0x18#6 rs1 (encodeOperand2 o)
  | .umulcc rd rs1 o => .fmt3 false rd 0x1A#6 rs1 (encodeOperand2 o)
  | .smulcc rd rs1 o => .fmt3 false rd 0x1B#6 rs1 (encodeOperand2 o)
  | .subxcc rd rs1 o => .fmt3 false rd 0x1C#6 rs1 (encodeOperand2 o)
  | .udivcc rd rs1 o => .fmt3 false rd 0x1E#6 rs1 (encodeOperand2 o)
  | .sdivcc rd rs1 o => .fmt3 false rd 0x1F#6 rs1 (encodeOperand2 o)
  | .taddcc rd rs1 o => .fmt3 false rd 0x20#6 rs1 (encodeOperand2 o)
  | .tsubcc rd rs1 o => .fmt3 false rd 0x21#6 rs1 (encodeOperand2 o)
  | .taddcctv rd rs1 o => .fmt3 false rd 0x22#6 rs1 (encodeOperand2 o)
  | .tsubcctv rd rs1 o => .fmt3 false rd 0x23#6 rs1 (encodeOperand2 o)
  | .mulscc rd rs1 o => .fmt3 false rd 0x24#6 rs1 (encodeOperand2 o)
  | .sll rd rs1 o => .fmt3 false rd 0x25#6 rs1 (encodeShift o)
  | .srl rd rs1 o => .fmt3 false rd 0x26#6 rs1 (encodeShift o)
  | .sra rd rs1 o => .fmt3 false rd 0x27#6 rs1 (encodeShift o)
  | .stbar => .fmt3 false 0#5 0x28#6 15#5 0#14
  | .rdy rd => .fmt3 false rd 0x28#6 0#5 0#14
  | .rdasr rd rs1 => .fmt3 false rd 0x28#6 rs1 0#14
  | .rdpsr rd => .fmt3 false rd 0x29#6 0#5 0#14
  | .rdwim rd => .fmt3 false rd 0x2A#6 0#5 0#14
  | .rdtbr rd => .fmt3 false rd 0x2B#6 0#5 0#14
  | .wry rs1 o => .fmt3 false 0#5 0x30#6 rs1 (encodeOperand2 o)
  | .wrasr rd rs1 o => .fmt3 false rd 0x30#6 rs1 (encodeOperand2 o)
  | .wrpsr rs1 o => .fmt3 false 0#5 0x31#6 rs1 (encodeOperand2 o)
  | .wrwim rs1 o => .fmt3 false 0#5 0x32#6 rs1 (encodeOperand2 o)
  | .wrtbr rs1 o => .fmt3 false 0#5 0x33#6 rs1 (encodeOperand2 o)
  | .fmovs rd rs2 => .fmt3 false rd 0x34#6 0#5 (0x001#9 ++ rs2)
  | .fnegs rd rs2 => .fmt3 false rd 0x34#6 0#5 (0x005#9 ++ rs2)
  | .fabss rd rs2 => .fmt3 false rd 0x34#6 0#5 (0x009#9 ++ rs2)
  | .fsqrts rd rs2 => .fmt3 false rd 0x34#6 0#5 (0x029#9 ++ rs2)
  | .fsqrtd rd rs2 => .fmt3 false rd 0x34#6 0#5 (0x02A#9 ++ rs2)
  | .fsqrtq rd rs2 => .fmt3 false rd 0x34#6 0#5 (0x02B#9 ++ rs2)
  | .fadds rd rs1 rs2 => .fmt3 false rd 0x34#6 rs1 (0x041#9 ++ rs2)
  | .faddd rd rs1 rs2 => .fmt3 false rd 0x34#6 rs1 (0x042#9 ++ rs2)
  | .faddq rd rs1 rs2 => .fmt3 false rd 0x34#6 rs1 (0x043#9 ++ rs2)
  | .fsubs rd rs1 rs2 => .fmt3 false rd 0x34#6 rs1 (0x045#9 ++ rs2)
  | .fsubd rd rs1 rs2 => .fmt3 false rd 0x34#6 rs1 (0x046#9 ++ rs2)
  | .fsubq rd rs1 rs2 => .fmt3 false rd 0x34#6 rs1 (0x047#9 ++ rs2)
  | .fmuls rd rs1 rs2 => .fmt3 false rd 0x34#6 rs1 (0x049#9 ++ rs2)
  | .fmuld rd rs1 rs2 => .fmt3 false rd 0x34#6 rs1 (0x04A#9 ++ rs2)
  | .fmulq rd rs1 rs2 => .fmt3 false rd 0x34#6 rs1 (0x04B#9 ++ rs2)
  | .fdivs rd rs1 rs2 => .fmt3 false rd 0x34#6 rs1 (0x04D#9 ++ rs2)
  | .fdivd rd rs1 rs2 => .fmt3 false rd 0x34#6 rs1 (0x04E#9 ++ rs2)
  | .fdivq rd rs1 rs2 => .fmt3 false rd 0x34#6 rs1 (0x04F#9 ++ rs2)
  | .fsmuld rd rs1 rs2 => .fmt3 false rd 0x34#6 rs1 (0x069#9 ++ rs2)
  | .fdmulq rd rs1 rs2 => .fmt3 false rd 0x34#6 rs1 (0x06E#9 ++ rs2)
  | .fitos rd rs2 => .fmt3 false rd 0x34#6 0#5 (0x0C4#9 ++ rs2)
  | .fdtos rd rs2 => .fmt3 false rd 0x34#6 0#5 (0x0C6#9 ++ rs2)
  | .fqtos rd rs2 => .fmt3 false rd 0x34#6 0#5 (0x0C7#9 ++ rs2)
  | .fitod rd rs2 => .fmt3 false rd 0x34#6 0#5 (0x0C8#9 ++ rs2)
  | .fstod rd rs2 => .fmt3 false rd 0x34#6 0#5 (0x0C9#9 ++ rs2)
  | .fqtod rd rs2 => .fmt3 false rd 0x34#6 0#5 (0x0CB#9 ++ rs2)
  | .fitoq rd rs2 => .fmt3 false rd 0x34#6 0#5 (0x0CC#9 ++ rs2)
  | .fstoq rd rs2 => .fmt3 false rd 0x34#6 0#5 (0x0CD#9 ++ rs2)
  | .fdtoq rd rs2 => .fmt3 false rd 0x34#6 0#5 (0x0CE#9 ++ rs2)
  | .fstoi rd rs2 => .fmt3 false rd 0x34#6 0#5 (0x0D1#9 ++ rs2)
  | .fdtoi rd rs2 => .fmt3 false rd 0x34#6 0#5 (0x0D2#9 ++ rs2)
  | .fqtoi rd rs2 => .fmt3 false rd 0x34#6 0#5 (0x0D3#9 ++ rs2)
  | .fcmps rs1 rs2 => .fmt3 false 0#5 0x35#6 rs1 (0x051#9 ++ rs2)
  | .fcmpd rs1 rs2 => .fmt3 false 0#5 0x35#6 rs1 (0x052#9 ++ rs2)
  | .fcmpq rs1 rs2 => .fmt3 false 0#5 0x35#6 rs1 (0x053#9 ++ rs2)
  | .fcmpes rs1 rs2 => .fmt3 false 0#5 0x35#6 rs1 (0x055#9 ++ rs2)
  | .fcmped rs1 rs2 => .fmt3 false 0#5 0x35#6 rs1 (0x056#9 ++ rs2)
  | .fcmpeq rs1 rs2 => .fmt3 false 0#5 0x35#6 rs1 (0x057#9 ++ rs2)
  | .fpop1Unassigned rd rs1 opf rs2 => .fmt3 false rd 0x34#6 rs1 (opf ++ rs2)
  | .fpop2Unassigned rd rs1 opf rs2 => .fmt3 false rd 0x35#6 rs1 (opf ++ rs2)
  | .cpop1 rd rs1 opc rs2 => .fmt3 false rd 0x36#6 rs1 (opc ++ rs2)
  | .cpop2 rd rs1 opc rs2 => .fmt3 false rd 0x37#6 rs1 (opc ++ rs2)
  | .jmpl rd rs1 o => .fmt3 false rd 0x38#6 rs1 (encodeOperand2 o)
  | .rett rs1 o => .fmt3 false 0#5 0x39#6 rs1 (encodeOperand2 o)
  | .tn rs1 o => .fmt3 false (0#1 ++ 0#4) 0x3A#6 rs1 (encodeTrapOperand o)
  | .te rs1 o => .fmt3 false (0#1 ++ 1#4) 0x3A#6 rs1 (encodeTrapOperand o)
  | .tle rs1 o => .fmt3 false (0#1 ++ 2#4) 0x3A#6 rs1 (encodeTrapOperand o)
  | .tl rs1 o => .fmt3 false (0#1 ++ 3#4) 0x3A#6 rs1 (encodeTrapOperand o)
  | .tleu rs1 o => .fmt3 false (0#1 ++ 4#4) 0x3A#6 rs1 (encodeTrapOperand o)
  | .tcs rs1 o => .fmt3 false (0#1 ++ 5#4) 0x3A#6 rs1 (encodeTrapOperand o)
  | .tneg rs1 o => .fmt3 false (0#1 ++ 6#4) 0x3A#6 rs1 (encodeTrapOperand o)
  | .tvs rs1 o => .fmt3 false (0#1 ++ 7#4) 0x3A#6 rs1 (encodeTrapOperand o)
  | .ta rs1 o => .fmt3 false (0#1 ++ 8#4) 0x3A#6 rs1 (encodeTrapOperand o)
  | .tne rs1 o => .fmt3 false (0#1 ++ 9#4) 0x3A#6 rs1 (encodeTrapOperand o)
  | .tg rs1 o => .fmt3 false (0#1 ++ 10#4) 0x3A#6 rs1 (encodeTrapOperand o)
  | .tge rs1 o => .fmt3 false (0#1 ++ 11#4) 0x3A#6 rs1 (encodeTrapOperand o)
  | .tgu rs1 o => .fmt3 false (0#1 ++ 12#4) 0x3A#6 rs1 (encodeTrapOperand o)
  | .tcc rs1 o => .fmt3 false (0#1 ++ 13#4) 0x3A#6 rs1 (encodeTrapOperand o)
  | .tpos rs1 o => .fmt3 false (0#1 ++ 14#4) 0x3A#6 rs1 (encodeTrapOperand o)
  | .tvc rs1 o => .fmt3 false (0#1 ++ 15#4) 0x3A#6 rs1 (encodeTrapOperand o)
  | .flush rs1 o => .fmt3 false 0#5 0x3B#6 rs1 (encodeOperand2 o)
  | .save rd rs1 o => .fmt3 false rd 0x3C#6 rs1 (encodeOperand2 o)
  | .restore rd rs1 o => .fmt3 false rd 0x3D#6 rs1 (encodeOperand2 o)
  | .call d => .call d
  | .unimp c => .fmt2 0#5 0#3 c
  | .nop => .fmt2 0#5 4#3 0#22
  | .sethi rd imm => .fmt2 rd 4#3 imm
  | .bn a d => .fmt2 (BitVec.ofBool a ++ 0#4) 2#3 d
  | .be a d => .fmt2 (BitVec.ofBool a ++ 1#4) 2#3 d
  | .ble a d => .fmt2 (BitVec.ofBool a ++ 2#4) 2#3 d
  | .bl a d => .fmt2 (BitVec.ofBool a ++ 3#4) 2#3 d
  | .bleu a d => .fmt2 (BitVec.ofBool a ++ 4#4) 2#3 d
  | .bcs a d => .fmt2 (BitVec.ofBool a ++ 5#4) 2#3 d
  | .bneg a d => .fmt2 (BitVec.ofBool a ++ 6#4) 2#3 d
  | .bvs a d => .fmt2 (BitVec.ofBool a ++ 7#4) 2#3 d
  | .ba a d => .fmt2 (BitVec.ofBool a ++ 8#4) 2#3 d
  | .bne a d => .fmt2 (BitVec.ofBool a ++ 9#4) 2#3 d
  | .bg a d => .fmt2 (BitVec.ofBool a ++ 10#4) 2#3 d
  | .bge a d => .fmt2 (BitVec.ofBool a ++ 11#4) 2#3 d
  | .bgu a d => .fmt2 (BitVec.ofBool a ++ 12#4) 2#3 d
  | .bcc a d => .fmt2 (BitVec.ofBool a ++ 13#4) 2#3 d
  | .bpos a d => .fmt2 (BitVec.ofBool a ++ 14#4) 2#3 d
  | .bvc a d => .fmt2 (BitVec.ofBool a ++ 15#4) 2#3 d
  | .fbn a d => .fmt2 (BitVec.ofBool a ++ 0#4) 6#3 d
  | .fbne a d => .fmt2 (BitVec.ofBool a ++ 1#4) 6#3 d
  | .fblg a d => .fmt2 (BitVec.ofBool a ++ 2#4) 6#3 d
  | .fbul a d => .fmt2 (BitVec.ofBool a ++ 3#4) 6#3 d
  | .fbl a d => .fmt2 (BitVec.ofBool a ++ 4#4) 6#3 d
  | .fbug a d => .fmt2 (BitVec.ofBool a ++ 5#4) 6#3 d
  | .fbg a d => .fmt2 (BitVec.ofBool a ++ 6#4) 6#3 d
  | .fbu a d => .fmt2 (BitVec.ofBool a ++ 7#4) 6#3 d
  | .fba a d => .fmt2 (BitVec.ofBool a ++ 8#4) 6#3 d
  | .fbe a d => .fmt2 (BitVec.ofBool a ++ 9#4) 6#3 d
  | .fbue a d => .fmt2 (BitVec.ofBool a ++ 10#4) 6#3 d
  | .fbge a d => .fmt2 (BitVec.ofBool a ++ 11#4) 6#3 d
  | .fbuge a d => .fmt2 (BitVec.ofBool a ++ 12#4) 6#3 d
  | .fble a d => .fmt2 (BitVec.ofBool a ++ 13#4) 6#3 d
  | .fbule a d => .fmt2 (BitVec.ofBool a ++ 14#4) 6#3 d
  | .fbo a d => .fmt2 (BitVec.ofBool a ++ 15#4) 6#3 d
  | .cbn a d => .fmt2 (BitVec.ofBool a ++ 0#4) 7#3 d
  | .cb123 a d => .fmt2 (BitVec.ofBool a ++ 1#4) 7#3 d
  | .cb12 a d => .fmt2 (BitVec.ofBool a ++ 2#4) 7#3 d
  | .cb13 a d => .fmt2 (BitVec.ofBool a ++ 3#4) 7#3 d
  | .cb1 a d => .fmt2 (BitVec.ofBool a ++ 4#4) 7#3 d
  | .cb23 a d => .fmt2 (BitVec.ofBool a ++ 5#4) 7#3 d
  | .cb2 a d => .fmt2 (BitVec.ofBool a ++ 6#4) 7#3 d
  | .cb3 a d => .fmt2 (BitVec.ofBool a ++ 7#4) 7#3 d
  | .cba a d => .fmt2 (BitVec.ofBool a ++ 8#4) 7#3 d
  | .cb0 a d => .fmt2 (BitVec.ofBool a ++ 9#4) 7#3 d
  | .cb03 a d => .fmt2 (BitVec.ofBool a ++ 10#4) 7#3 d
  | .cb02 a d => .fmt2 (BitVec.ofBool a ++ 11#4) 7#3 d
  | .cb023 a d => .fmt2 (BitVec.ofBool a ++ 12#4) 7#3 d
  | .cb01 a d => .fmt2 (BitVec.ofBool a ++ 13#4) 7#3 d
  | .cb013 a d => .fmt2 (BitVec.ofBool a ++ 14#4) 7#3 d
  | .cb012 a d => .fmt2 (BitVec.ofBool a ++ 15#4) 7#3 d
  | .unassignedOp2 op2 => .fmt2 0#5 op2 0#22
  | .unassignedOp3Arith op3 => .fmt3 false 0#5 op3 0#5 0#14
  | .unassignedOp3Mem op3 => .fmt3 true 0#5 op3 0#5 0#14

/-- The word of an instruction. -/
def encode (i : Instr) : Word := pack (encodeFormat i)

/-- What the decoder reads from an instruction of `nbits` bits `w`, numbered from the least
significant bit of its one word; the bits above are zero. -/
def decodeTableWord (nbits w : Nat) : Option Instr :=
  if 32 < nbits ∨ 2 ^ nbits ≤ w then none
  else
    match decode (bytesOfWord (BitVec.ofNat 32 w)) with
    | .ok (i, _) => some i
    | .error _ => none

end Sys2Proof
end

