-- ==== Sys2Proof/Config.lean ====
section
/-! DEFINITION. What an implementation of SPARC V8 fixes (00_scope.md R7: every parameter, with the
spec's default) and the free values the spec leaves open. The parameters stand in `State.cfg`, so a
statement about every state is a statement about every legal implementation (log 1). The free values
are opaque constants: nothing in Lean can evaluate them. -/

namespace Sys2Proof

/-- What a region of the physical address space holds (20_memory.md R119, R120). -/
inductive RegionKind where
  /-- Real memory: no side effects. -/
  | realMemory
  /-- Memory whose contents stores do not change (70_reset_and_hazards.md R802; log 41). -/
  | rom
  /-- I/O locations: the environment drives what a read delivers, and sees the accesses in program order
  (R121, 00_scope.md R13 (4); log 39). -/
  | io
  /-- Nothing: an access raises the access exception (R119). -/
  | unmapped
  deriving DecidableEq, Repr

/-- One entry of MEMORY_MAP (20_memory.md R119): the address spaces it applies to (none listed: all),
its first physical address, its size in bytes, its kind. -/
structure Region where
  asis : List (BitVec 8)
  base : Nat
  size : Nat
  kind : RegionKind
  deriving DecidableEq, Repr

/-- What ASI_MAP says of an ASI that is none of the four architectural ones; with the Reference MMU it comes
before the assignments of 21_reference_mmu.md R215 to R225 (20_memory.md R108; log 25). -/
inductive AsiUse where
  /-- The address space is physical memory with these upper four address bits. -/
  | memory (upper : BitVec 4)
  /-- A cache-flush space: a word store removes a line, which the architecture cannot see (R222). -/
  | cacheFlush
  /-- A device or diagnostic space: I/O locations (20_memory.md R120; log 39). -/
  | device
  /-- No space: it takes an assignment of the Reference MMU away (93_implementation_defined.md I47). -/
  | absent
  deriving DecidableEq, Repr

/-- FLUSH_IMPLEMENTED (43_state_regs_misc.md R590). -/
inductive FlushImpl where
  | inHardware
  | trapsUnimplementedFlush
  | trapsIllegalInstruction
  deriving DecidableEq, Repr

/-- TRAP_MODEL: the default trap model, the one R704 of 60_exceptions.md gives a definition of. What R704
leaves to the implementation within it is FQ_PRESENT (1) and the environment's inputs (2), (3) and (4)
(log 26, log 36). -/
inductive TrapModel where
  | default
  deriving DecidableEq, Repr

/-- NS_BEHAVIOUR: what FSR.NS = 1 does (10_state.md R59; log 36). -/
inductive NsBehaviour where
  /-- NS reads as zero, even after a 1 is written to it. -/
  | readsZero
  /-- NS is a bit of the FSR that nothing acts on. -/
  | noEffect
  /-- While NS is set the results of the arithmetic FPops are the implementation's. -/
  | implementationDefined
  deriving DecidableEq, Repr

/-- The parameters of 00_scope.md R7. MEMORY_ERRORS, UNFINISHED_FPOP, IMPL_DEP_TRAPS and IRL_SOURCE are the
environment's inputs (log 10, log 26); RESET_VALUES is `State.reset` (log 2); CP_MODEL and
ASR_RESERVED_READ are the free values below; PSO_MODE, which changes, is a field of the state; PA_WIDTH
follows from MMU_PRESENT. -/
structure Config where
  /-- NWINDOWS - 2: every value from 2 to 32 and no other (10_state.md R21). -/
  nwindowsLess2 : Fin 31 := 6
  psrImpl : BitVec 4 := 0
  psrVer : BitVec 4 := 0
  fpuPresent : Bool := true
  fsrVer : BitVec 3 := 0
  fqPresent : Bool := false
  /-- FQ_DEPTH - 1: the queue has at least one place. -/
  fqDepthLess1 : Nat := 0
  cpPresent : Bool := false
  /-- The coprocessor, if present, has a queue for STDCQ, and may defer its exceptions (40_load_store.md R363,
  45_cpop.md R682). -/
  cqPresent : Bool := false
  /-- Bit k: ASR 16 + k is implemented (10_state.md R47). -/
  asrImplemented : BitVec 16 := 0
  /-- Bit n: ASR n is privileged (10_state.md R47). -/
  asrPrivileged : BitVec 32 := 0
  psoSupported : Bool := true
  mmuPresent : Bool := false
  mmuImpl : BitVec 4 := 0
  mmuVer : BitVec 4 := 0
  mmuContextBits : Fin 33 := 8
  mmuScMask : BitVec 16 := 0
  /-- The PDC ignores the context tag of supervisor pages (21_reference_mmu.md R176). -/
  pdcIgnoresContext : Bool := true
  /-- The PDC caches PTDs as well as PTEs (21_reference_mmu.md R176, "and possibly PTDs"). -/
  pdcCachesPtds : Bool := false
  asiDecodeMask : BitVec 8 := 0xFF#8
  /-- UNIMPLEMENTED_INSTRUCTIONS and UNIMPLEMENTED_FPOPS as (mask, match) pairs of instruction words. -/
  unimplemented : List (Word × Word) := []
  flushImpl : FlushImpl := .inHardware
  /-- The first region that holds an address decides; an address in none is unmapped. -/
  memoryMap : List Region := [⟨[], 0, 2 ^ 36, .realMemory⟩]
  asiMap : List (BitVec 8 × AsiUse) := []
  /-- A translated access under a PTE with C = 0 is an I/O access, whatever MEMORY_MAP says of its physical
  address (20_memory.md R120 (2), 21_reference_mmu.md R169; log 42). -/
  uncacheableIsIo : Bool := false
  /-- A store to a read-only region of MEMORY_MAP raises the access exception; else it is performed and
  changes nothing (log 41). -/
  romStoreTraps : Bool := false
  /-- IBUF_MODEL = stale_allowed (20_memory.md R142). -/
  ibufStale : Bool := false
  /-- SDIV_OVERFLOW_METHOD = B (41_integer_alu.md R462). -/
  sdivMethodB : Bool := false
  /-- RESERVED_OPF_TRAP = illegal_instruction (44_fpop.md R603). -/
  reservedOpfIllegal : Bool := false
  misalignedFregTraps : Bool := true
  oddRdLddTraps : Bool := true
  wrDelay : Fin 4 := 3
  /-- FP_LOAD_FAULT_VALUE: `none` unchanged, else the constant (40_load_store.md R335). -/
  fpLoadFaultValue : Option Word := none
  resetOnError : Bool := false
  trapModel : TrapModel := .default
  nsBehaviour : NsBehaviour := .readsZero
  deriving DecidableEq, Repr

/-- NWINDOWS, 2 to 32 (10_state.md R21). -/
def Config.nwindows (c : Config) : Nat := c.nwindowsLess2.val + 2

/-- FQ_DEPTH (00_scope.md R7). -/
def Config.fqDepth (c : Config) : Nat := c.fqDepthLess1 + 1

/-- PA_WIDTH: 32 without an MMU, 36 with the Reference MMU (00_scope.md R7). -/
def Config.paWidth (c : Config) : Nat := if c.mmuPresent then 36 else 32

/-- The state of the attached coprocessor (10_state.md R78): its registers, CSR, queue, the condition
codes it presents, and one number standing for whatever else it holds. -/
structure CpState where
  regs : Vector Word 32
  csr : Word
  cq : List (Word × Word)
  cc : BitVec 2
  hidden : Nat
  deriving DecidableEq, Repr, Inhabited

/-- The two coprocessor operate opcodes (45_cpop.md R680, R681). -/
inductive Cpop where
  | op1
  | op2
  deriving DecidableEq, Repr

/-- What the IU asks of the coprocessor (45_cpop.md R680 to R682, 40_load_store.md R340 to R363). -/
inductive CpRequest where
  /-- CPop1, with its address for the coprocessor's queue (R682). -/
  | op1 (pc : Word) (rd rs1 : RegNum) (opc : BitVec 9) (rs2 : RegNum)
  /-- CPop2, with its address. -/
  | op2 (pc : Word) (rd rs1 : RegNum) (opc : BitVec 9) (rs2 : RegNum)
  /-- LDC: the register and the word read. -/
  | load (rd : RegNum) (word : Word)
  /-- LDDC: the register and the doubleword read. -/
  | loadDouble (rd : RegNum) (word0 word1 : Word)
  /-- LDDC whose second word faulted: the even register may be changed (R341). -/
  | loadFirst (rd : RegNum) (word0 : Word)
  /-- LDCSR: the word read. -/
  | loadCsr (word : Word)
  | store (rd : RegNum)
  | storeDouble (rd : RegNum)
  | storeCsr
  | storeQueue
  /-- CBccc with this condition. -/
  | branch (cond : BitVec 4)
  /-- No request of the IU: an exception of a CPop1 or CPop2 becomes outstanding, and the queue is loaded as the
  coprocessor does it (R682, 60_exceptions.md R720). -/
  | defer (cpop : Cpop)
  deriving DecidableEq, Repr

/-! ### Free values (guide: opaque constants, each applied to the operands or to the counter
`State.freeDraws`) -/

/-- CP_MODEL: the coprocessor's state after the request (log 16). -/
opaque Config.cpNext : CpRequest → CpState → CpState

/-- CP_MODEL: the word or words a coprocessor store sends to memory (log 16). -/
opaque Config.cpData : CpRequest → CpState → Word × Word

/-- ASR_RESERVED_READ: what RDASR of ASR 1 to 15 delivers (43_state_regs_misc.md R561; log 12). -/
opaque Config.asrReservedRead : BitVec 5 → Nat → Word

/-- The fcc an FBfcc sees in the hazard window (70_reset_and_hazards.md R825, R826; log 11). -/
opaque Config.hazardFcc : Nat → BitVec 2

/-- What a load returns under a suppressed MMU fault, before it is cut to the size of the access
(21_reference_mmu.md R182; log 18). -/
opaque Config.noFaultLoad : Nat → Word

/-- Whether a store is performed under a suppressed MMU fault (21_reference_mmu.md R182; log 18). -/
opaque Config.noFaultStore : Nat → Bool

/-- What a probe of type 5 to 0xF returns (21_reference_mmu.md R199; log 20). -/
opaque Config.reservedProbe : Nat → Word

/-- The physical address under a large-page PTE whose PPN is misaligned, for the PTE, its level and
the virtual address (21_reference_mmu.md R174, 91_not_in_source.md N30; log 19). -/
opaque Config.misalignedPagePa : Word → Nat → Word → BitVec 36

/-- Whether PDC entry number k has been replaced since it was last used (21_reference_mmu.md R176;
log 17). -/
opaque Config.pdcReplaced : Nat → Nat → Bool

/-- The external bus error bits (21_reference_mmu.md R188, "implementation-dependent"; log 22). -/
opaque Config.busErrorBits : Nat → BitVec 8

/-- The level recorded with an access bus error or an internal error, which no table entry caused
(21_reference_mmu.md R188; log 22). -/
opaque Config.faultLevel : Nat → BitVec 2

/-- What a read of an I/O location delivers if the environment drives nothing, before it is cut to the size
of the access (20_memory.md R121; log 39). -/
opaque Config.ioUndriven : Nat → Word

/-- What the FPop of an instruction word delivers on the bits of its operands while FSR.NS is set: the
result, or fcc in its low bits, and the raised exceptions (10_state.md R59; log 36). -/
opaque Config.nonstandardResult : Word → Nat → Nat → Nat × BitVec 5

/-- Which of the values a stale instruction word may have a fetch returns (20_memory.md R141 (c);
log 27). -/
opaque Config.staleDraw : Nat → Nat

end Sys2Proof
end

