-- ==== Sys2Proof/Machine/State.lean ====
section
/-! DEFINITION. The state of one SPARC V8 processor, its memory and its optional Reference MMU
(10_state.md R20, R80; 21_reference_mmu.md R180), as plain data; the reasons a step can stop; the
state after reset (10_state.md R95). INVENTORY.md lists every field with its rule. -/

namespace Sys2Proof.Machine

/-- The processor's three states (70_reset_and_hazards.md R800). -/
inductive Mode where
  | execute
  | reset
  | error
  deriving DecidableEq, Repr

/-- The integer condition codes (10_state.md R35). -/
structure Icc where
  n : Bool
  z : Bool
  v : Bool
  c : Bool
  deriving DecidableEq, Repr

/-- The fields of the PSR that are storage (10_state.md R31); impl and ver are hardwired, bits 19:14
read as zero. -/
structure Psr where
  icc : Icc
  ec : Bool
  ef : Bool
  pil : BitVec 4
  s : Bool
  ps : Bool
  et : Bool
  cwp : BitVec 5
  deriving DecidableEq, Repr

/-- The Trap Base Register (10_state.md R45); bits 3:0 are zero. -/
structure Tbr where
  tba : BitVec 20
  tt : BitVec 8
  deriving DecidableEq, Repr

/-- The fields of the FSR that are storage (10_state.md R55); `ns` acts only as NS_BEHAVIOUR says (R59). -/
structure Fsr where
  rd : BitVec 2
  tem : BitVec 5
  ns : Bool
  ftt : BitVec 3
  fcc : BitVec 2
  aexc : BitVec 5
  cexc : BitVec 5
  deriving DecidableEq, Repr

/-- One doubleword of the floating-point queue: the FPop's address and word (10_state.md R76). -/
structure FqEntry where
  address : Word
  instruction : Word
  deriving DecidableEq, Repr

/-- The floating-point formats (10_state.md R51). -/
inductive FpFormat where
  | single
  | double
  | quad
  deriving DecidableEq, Repr

/-- The operations of the FPops (44_fpop.md R615 to R670), with the formats of their operands and results;
`mul` of two formats is FsMULd or FdMULq. `compare` raises invalid for quiet NaNs too if its flag is set.
`unassigned` is a word of FPop1 or, with its flag, of FPop2 that is no FPop (R603). -/
inductive FpOp where
  | ofInt (dst : FpFormat)
  | toInt (src : FpFormat)
  | convert (src dst : FpFormat)
  | move
  | negate
  | absolute
  | sqrt (f : FpFormat)
  | add (f : FpFormat)
  | sub (f : FpFormat)
  | mul (src dst : FpFormat)
  | div (f : FpFormat)
  | compare (f : FpFormat) (quietToo : Bool)
  | unassigned (fpop2 : Bool)
  deriving DecidableEq, Repr

/-- An FPop the FPU works on: its operation, its registers, whether the FPU implements it
(UNIMPLEMENTED_FPOPS, 44_fpop.md R603), and its address and word for the FQ. -/
structure FpWork where
  op : FpOp
  rd : RegNum
  rs1 : RegNum
  rs2 : RegNum
  implemented : Bool
  entry : FqEntry
  deriving DecidableEq, Repr

/-- What an fp_exception trap records (60_exceptions.md R719, R755): ftt, and for an IEEE_754_exception
the new cexc. -/
structure FpRecord where
  ftt : BitVec 3
  cexc : Option (BitVec 5)
  deriving DecidableEq, Repr

/-- The FPU's states (10_state.md R76): executing, holding a deferred exception, or in the
fp_exception state after its trap was taken. -/
inductive FpuMode where
  | execute
  | pending (record : FpRecord)
  | exception
  deriving DecidableEq, Repr

/-- The registers written with delay (70_reset_and_hazards.md R820). -/
inductive StateReg where
  | y
  | psr
  | wim
  | tbr
  | asr (n : Fin 16)
  deriving DecidableEq, Repr

/-- The fields of the state registers that instructions read and write on their own
(43_state_regs_misc.md R575). -/
inductive StateField where
  | y
  | icc
  | ec
  | ef
  | pil
  | s
  | ps
  | et
  | cwp
  | wim
  | tba
  | asr (n : Fin 16)
  deriving DecidableEq, Repr

/-- A write state register instruction of the last three instructions: its register, the fields it changed,
and for how many instructions, itself counted as one, it is remembered (43_state_regs_misc.md R575,
70_reset_and_hazards.md R820; log 6). -/
structure RecentWrite where
  reg : StateReg
  changed : List StateField
  left : Nat
  deriving DecidableEq, Repr

/-- A write that has not reached its register yet (70_reset_and_hazards.md R820). -/
structure PendingWrite where
  reg : StateReg
  value : Word
  countdown : Nat
  deriving DecidableEq, Repr

/-- A value an instruction buffer may still hold for the word at a physical address (20_memory.md
R140): `va` is the address of the store that replaced it; `flushIn` counts down the delay of a FLUSH of
its doubleword, by either address, if one was executed since. -/
structure StaleWord where
  va : Word
  pa : Nat
  old : Word
  flushIn : Option Nat
  deriving DecidableEq, Repr

/-- The MMU's Fault Status Register (21_reference_mmu.md R187). -/
structure FaultStatus where
  ebe : BitVec 8
  level : BitVec 2
  access : BitVec 3
  ft : BitVec 3
  fav : Bool
  ow : Bool
  deriving DecidableEq, Repr

/-- The classes of MMU faults (21_reference_mmu.md R189). -/
inductive FaultClass where
  | instruction
  | data
  | table
  deriving DecidableEq, Repr

/-- One entry of the page descriptor cache (21_reference_mmu.md R176): its context, address and level
tags, the table entry it holds (a PTE or a PTD by its ET) and where that entry stands in memory. -/
structure PdcEntry where
  context : Word
  va : Word
  level : Nat
  entry : Word
  entryPa : Nat
  deriving DecidableEq, Repr

/-- The Reference MMU (21_reference_mmu.md R180 to R191, R176). -/
structure Mmu where
  sc : BitVec 16
  pso : Bool
  nf : Bool
  e : Bool
  ctp : BitVec 30
  context : Word
  status : FaultStatus
  statusClass : Option FaultClass
  far : Word
  pdc : List PdcEntry
  deriving DecidableEq, Repr

/-- A machine-check or other implementation-dependent condition the environment presents in a step
(60_exceptions.md R711, R721 to R723, R727, R728, R731 to R734; 21_reference_mmu.md R175, R188, R199; log
26). -/
inductive MachineCheck where
  | dataStoreError
  | instructionAccessMmuMiss
  | instructionAccessError
  | rRegisterAccessError
  | watchpointDetected
  /-- On a load/store data access; `second`: on the second word of a doubleword or the write half of
  an atomic only (60_exceptions.md R704 (3)). -/
  | dataAccessError (second : Bool)
  /-- Memory reports an access exception on the fetch (00_scope.md R13 (4), 60_exceptions.md R711). -/
  | instructionAccessException
  /-- Memory reports an access exception on a load/store data access; `second` as before (00_scope.md R13
  (4), 60_exceptions.md R722; 40_load_store.md R330, R349). -/
  | dataAccessException (second : Bool)
  /-- An external bus error on the MMU's read of the table entry at this level, on a walk for the fetch
  (21_reference_mmu.md R175, R188, FT = 4). -/
  | instructionTableError (level : BitVec 2)
  /-- The same on a walk for a load/store data access, or of a probe (R175, R188, R199). -/
  | dataTableError (level : BitVec 2)
  /-- The MMU finds an internal inconsistency on the fetch (21_reference_mmu.md R188, FT = 6). -/
  | instructionInternalError
  /-- The MMU finds an internal inconsistency on a load/store data access (R188, FT = 6). -/
  | dataInternalError
  | dataAccessMmuMiss
  /-- tt = 0x60 + n. -/
  | implementationDependent (n : BitVec 5)
  deriving DecidableEq, Repr

/-- What the FPU may do to the first arithmetic FPop it ends in this step (44_fpop.md R604 UNFINISHED_FPOP;
10_state.md R62 hardware_error). -/
inductive FpuEvent where
  | unfinished
  | hardwareError
  deriving DecidableEq, Repr

/-- The sizes of accesses (20_memory.md R110). A doubleword is two word accesses (R113). -/
inductive Size where
  | byte
  | half
  | word
  | dword
  deriving DecidableEq, Repr

/-- What an access is: an instruction fetch, a load/store access, or the second access of a
multiple-access instruction (60_exceptions.md R704 (3)). -/
inductive AccessKind where
  | fetch
  | first
  | second
  deriving DecidableEq, Repr

/-- The words the environment drives on the I/O reads of a step (00_scope.md R13 (4); log 39). -/
structure IoData where
  fetch : Word
  first : Word
  second : Word
  deriving DecidableEq, Repr

/-- One access to an I/O location, as its device sees it (20_memory.md R121; log 39). -/
structure IoAccess where
  store : Bool
  asi : BitVec 8
  address : Nat
  size : Size
  value : Word
  deriving DecidableEq, Repr

/-- The environment's inputs for one step (10_state.md R80; 60_exceptions.md R760). -/
structure Inputs where
  irl : BitVec 4
  resetIn : Bool
  machineCheck : Option MachineCheck
  fpu : Option FpuEvent
  /-- How many of the FPops it works on the FPU ends at the start of this step (10_state.md R76; log 14). -/
  fpuEnds : Nat
  io : Option IoData
  /-- The attached coprocessor answers a request of this step with an exception (60_exceptions.md R720;
  log 16). -/
  cpException : Bool
  /-- An exception of a CPop1 or CPop2 that the attached coprocessor took on before becomes outstanding at the
  start of this step, if the coprocessor has a queue (45_cpop.md R682, 60_exceptions.md R720; log 16). -/
  cpDeferred : Option Cpop
  deriving DecidableEq, Repr

/-- No request (IRL_SOURCE constant 0, MEMORY_ERRORS never). -/
def Inputs.quiet : Inputs := ⟨0#4, false, none, none, 0, none, false, none⟩

/-- Memory: the bytes that differ from what an unlisted address reads as, by physical address, in
rising order (log 3). -/
abbrev Memory := List Host.Cell

/-- The machine. -/
structure State where
  cfg : Config
  mode : Mode
  pbError : Bool
  pc : Word
  npc : Word
  annul : Bool
  globals : Vector Word 7
  windowed : Vector Word 512
  psr : Psr
  wim : Word
  tbr : Tbr
  y : Word
  asr : Vector Word 16
  fregs : Vector Word 32
  fsr : Fsr
  fpuMode : FpuMode
  fpuQueue : List FpWork
  fq : List FqEntry
  cp : CpState
  cpPending : Bool
  pending : List PendingWrite
  recentWrites : List RecentWrite
  storeBarrierPending : Bool
  psoMode : Bool
  blockByte : Bool
  blockWord : Bool
  mem : Memory
  staleWords : List StaleWord
  ioTrace : List IoAccess
  mmu : Mmu
  instruction : Word
  fccWindow : Nat
  inputs : List Inputs
  now : Inputs
  freeDraws : Nat
  deriving DecidableEq, Repr

/-- Why the machine stops with a fault. -/
inductive Fault where
  /-- Raised by `step` if the decoder is given fewer than four bytes. A fetch always gives four
  (30_encoding.md R230), so no state raises it. Safe: the machine stops. -/
  | truncatedInstruction
  deriving DecidableEq, Repr

/-- Why an instruction has no meaning in this model. -/
inductive Refusal where
  /-- Raised by an arm of `exec` whose instruction has no meaning yet. Safe: the machine stops. -/
  | notModelled (mnemonic : String)
  deriving DecidableEq, Repr

/-- The state right after a power-up reset (10_state.md R95; 70_reset_and_hazards.md R801, R802): PC,
nPC, ET, S, annul, pb_error and the emptied hidden state as the spec says; memory with nothing listed;
every register the spec leaves unspecified is zero (log 2). -/
def State.reset : State where
  cfg := {}
  mode := .execute
  pbError := false
  pc := 0#32
  npc := 4#32
  annul := false
  globals := Vector.replicate 7 0#32
  windowed := Vector.replicate 512 0#32
  psr :=
    { icc := ⟨false, false, false, false⟩, ec := false, ef := false, pil := 0#4, s := true,
      ps := false, et := false, cwp := 0#5 }
  wim := 0#32
  tbr := ⟨0#20, 0#8⟩
  y := 0#32
  asr := Vector.replicate 16 0#32
  fregs := Vector.replicate 32 0#32
  fsr := ⟨0#2, 0#5, false, 0#3, 0#2, 0#5, 0#5⟩
  fpuMode := .execute
  fpuQueue := []
  fq := []
  cp := ⟨Vector.replicate 32 0#32, 0#32, [], 0#2, 0⟩
  cpPending := false
  pending := []
  recentWrites := []
  storeBarrierPending := false
  psoMode := false
  blockByte := false
  blockWord := false
  mem := []
  staleWords := []
  ioTrace := []
  mmu :=
    { sc := 0#16, pso := false, nf := false, e := false, ctp := 0#30, context := 0#32,
      status := ⟨0#8, 0#2, 0#3, 0#3, false, false⟩, statusClass := none, far := 0#32, pdc := [] }
  instruction := 0#32
  fccWindow := 0
  inputs := []
  now := Inputs.quiet
  freeDraws := 0

end Sys2Proof.Machine
end

