-- ==== Sys2Proof/Machine/Ops.lean ====
section
/-! DEFINITION. The named operations over memory, registers and the program counters; the delayed
writes; taking a trap, entering error_mode and the reset trap. -/

namespace Sys2Proof.Machine

/-! ### Memory (20_memory.md R100, R101) -/

/-- What an address that is not listed reads as (log 3). -/
def Memory.unlisted : Byte := 0#8

/-- The byte at a physical address. -/
def Memory.read8 : Memory → Nat → Byte
  | [], _ => Memory.unlisted
  | (a, b) :: m, k => if a = k then b else Memory.read8 m k

/-- Put a byte in its place; the address is not in the list. -/
def Memory.insert : Memory → Nat → Byte → Memory
  | [], k, b => [(k, b)]
  | (a, c) :: m, k, b => if k < a then (k, b) :: (a, c) :: m else (a, c) :: Memory.insert m k b

/-- Write a byte. A byte equal to what an unlisted address reads as is not listed. -/
def Memory.write8 (m : Memory) (k : Nat) (b : Byte) : Memory :=
  let rest := m.filter (fun c => c.1 != k)
  if b = Memory.unlisted then rest else Memory.insert rest k b

/-- The canonical form: addresses strictly rising, no byte that an unlisted address reads as. -/
abbrev Memory.wf (m : Memory) : Prop :=
  m.Pairwise (fun x y => x.1 < y.1) ∧ ∀ c ∈ m, c.2 ≠ Memory.unlisted

/-- The alignment of an access (20_memory.md R102, 40_load_store.md R303). -/
def Size.alignment : Size → Nat
  | .byte => 1
  | .half => 2
  | .word => 4
  | .dword => 8

/-- How many bytes one access transfers; a doubleword transfers a word at a time (R113). -/
def Size.bytes : Size → Nat
  | .byte => 1
  | .half => 2
  | _ => 4

/-- The word at a physical address, most significant byte first (20_memory.md R101). -/
def Memory.read32 (m : Memory) (a : Nat) : Word :=
  wordOfBytes (m.read8 a) (m.read8 (a + 1)) (m.read8 (a + 2)) (m.read8 (a + 3))

/-- The bytes of one access, zero-extended to a word (40_load_store.md R306). -/
def Memory.read (m : Memory) (a : Nat) : Size → Word
  | .byte => (m.read8 a).setWidth 32
  | .half => (m.read8 a ++ m.read8 (a + 1) : BitVec (8 + 8)).setWidth 32
  | _ => m.read32 a

/-- The low bits of a word that an access of a size transfers, zero-extended (40_load_store.md R306). -/
def Size.narrow (v : Word) : Size → Word
  | .byte => (v.extractLsb' 0 8).setWidth 32
  | .half => (v.extractLsb' 0 16).setWidth 32
  | _ => v

/-- Write a word, most significant byte first (20_memory.md R101). -/
def Memory.write32 (m : Memory) (a : Nat) (v : Word) : Memory :=
  (((m.write8 a (v.extractLsb' 24 8)).write8 (a + 1) (v.extractLsb' 16 8)).write8 (a + 2)
    (v.extractLsb' 8 8)).write8 (a + 3) (v.extractLsb' 0 8)

/-- Write the low bytes of a word (40_load_store.md R307). -/
def Memory.write (m : Memory) (a : Nat) (v : Word) : Size → Memory
  | .byte => m.write8 a (v.extractLsb' 0 8)
  | .half => (m.write8 a (v.extractLsb' 8 8)).write8 (a + 1) (v.extractLsb' 0 8)
  | _ => m.write32 a v

/-! ### The r registers (10_state.md R21 to R24) -/

/-- CWP - 1 modulo NWINDOWS (10_state.md R43). -/
def cwpBelow (c : Config) (cwp : BitVec 5) : BitVec 5 :=
  BitVec.ofNat 5 ((cwp.toNat + c.nwindows - 1) % c.nwindows)

/-- CWP + 1 modulo NWINDOWS (10_state.md R43). -/
def cwpAbove (c : Config) (cwp : BitVec 5) : BitVec 5 :=
  BitVec.ofNat 5 ((cwp.toNat + 1) % c.nwindows)

/-- Where r[n], 8 ≤ n, stands in the windowed file: ((n - 8) + CWP*16) mod (16*NWINDOWS)
(10_state.md R22). -/
def windowIndex (c : Config) (cwp : BitVec 5) (n : RegNum) : Fin 512 :=
  ⟨((n.toNat - 8) + cwp.toNat * 16) % (16 * c.nwindows), by
    have h : c.nwindows ≤ 32 := by unfold Config.nwindows; omega
    have h' : 0 < 16 * c.nwindows := by unfold Config.nwindows; omega
    have := Nat.mod_lt ((n.toNat - 8) + cwp.toNat * 16) h'
    omega⟩

/-- Where G[n], 1 ≤ n ≤ 7, stands among the globals. -/
def globalIndex (n : RegNum) : Fin 7 := Fin.ofNat 7 (n.toNat - 1)

/-- r[n] of window `cwp` (10_state.md R22). -/
def regIn (s : State) (cwp : BitVec 5) (n : RegNum) : Word :=
  if n = 0#5 then 0#32
  else if n.toNat < 8 then s.globals[globalIndex n]
  else s.windowed[windowIndex s.cfg cwp n]

/-- r[n] of the current window. -/
def reg (s : State) (n : RegNum) : Word := regIn s s.psr.cwp n

/-- r[n] of window `cwp` <- v; a write to r[0] is discarded (10_state.md R24). -/
def setRegIn (s : State) (cwp : BitVec 5) (n : RegNum) (v : Word) : State :=
  if n = 0#5 then s
  else if n.toNat < 8 then { s with globals := s.globals.set (globalIndex n) v }
  else { s with windowed := s.windowed.set (windowIndex s.cfg cwp n) v }

/-- r[n] of the current window <- v. -/
def setReg (s : State) (n : RegNum) (v : Word) : State := setRegIn s s.psr.cwp n v

/-! ### Program counters and control registers -/

/-- PC <- nPC; nPC <- nPC + 4 (10_state.md R29). -/
def advance (s : State) : State := { s with pc := s.npc, npc := s.npc + 4#32 }

/-- PSR.EF as it acts: 0 without an FPU (10_state.md R38). -/
def efOn (s : State) : Bool := s.psr.ef && s.cfg.fpuPresent

/-- PSR.EC as it acts: 0 without a coprocessor (10_state.md R37). -/
def ecOn (s : State) : Bool := s.psr.ec && s.cfg.cpPresent

/-- The 32-bit image of the PSR (10_state.md R31, 43_state_regs_misc.md R563). -/
def psrWord (s : State) : Word :=
  (s.cfg.psrImpl ++ s.cfg.psrVer
    ++ BitVec.ofBool s.psr.icc.n ++ BitVec.ofBool s.psr.icc.z ++ BitVec.ofBool s.psr.icc.v
    ++ BitVec.ofBool s.psr.icc.c ++ 0#6 ++ BitVec.ofBool (ecOn s) ++ BitVec.ofBool (efOn s)
    ++ s.psr.pil ++ BitVec.ofBool s.psr.s ++ BitVec.ofBool s.psr.ps ++ BitVec.ofBool s.psr.et
    ++ s.psr.cwp : BitVec (4 + 4 + 1 + 1 + 1 + 1 + 6 + 1 + 1 + 4 + 1 + 1 + 1 + 5))

/-- The implemented bits of the WIM: 2^NWINDOWS - 1 (10_state.md R44). -/
def wimMask (c : Config) : Word := BitVec.ofNat 32 (2 ^ c.nwindows - 1)

/-- The WIM as it reads (10_state.md R44). -/
def wimWord (s : State) : Word := s.wim &&& wimMask s.cfg

/-- Is window `cwp` marked invalid (10_state.md R44). -/
def windowInvalid (s : State) (cwp : BitVec 5) : Bool := (wimWord s).getLsbD cwp.toNat

/-- The TBR: TBA, tt, four zeroes (10_state.md R45). -/
def tbrWord (s : State) : Word := (s.tbr.tba ++ s.tbr.tt ++ 0#4 : BitVec (20 + 8 + 4))

/-- FSR.qne: the FQ is not empty (10_state.md R63). -/
def qne (s : State) : Bool := !s.fq.isEmpty

/-- Is FSR.NS a bit of storage (10_state.md R59). -/
def storesNs (c : Config) : Bool := c.nsBehaviour != .readsZero

/-- The stored image of the FSR (10_state.md R55, 40_load_store.md R358); the unused and reserved bits are
0 (R57), NS too where it is no storage (R59). -/
def fsrWord (s : State) : Word :=
  (s.fsr.rd ++ 0#2 ++ s.fsr.tem ++ BitVec.ofBool (s.fsr.ns && storesNs s.cfg) ++ 0#2 ++ s.cfg.fsrVer ++ s.fsr.ftt
    ++ BitVec.ofBool (qne s) ++ 0#1 ++ s.fsr.fcc ++ s.fsr.aexc ++ s.fsr.cexc
    : BitVec (2 + 2 + 5 + 1 + 2 + 3 + 3 + 1 + 1 + 2 + 5 + 5))

/-- What LDFSR loads of a word: RD, TEM, NS if it is storage, fcc, aexc, cexc (40_load_store.md R338). -/
def loadFsr (c : Config) (f : Fsr) (w : Word) : Fsr :=
  { f with
    rd := w.extractLsb' 30 2, ns := w.getLsbD 22 && storesNs c, tem := w.extractLsb' 23 5, fcc := w.extractLsb' 10 2,
    aexc := w.extractLsb' 5 5, cexc := w.extractLsb' 0 5 }

/-- PSR <- w: the writable fields; EC and EF stay 0 without their unit (43_state_regs_misc.md R573). -/
def writePsr (s : State) (w : Word) : State :=
  { s with
    psr :=
      { icc := ⟨w.getLsbD 23, w.getLsbD 22, w.getLsbD 21, w.getLsbD 20⟩
        ec := w.getLsbD 13 && s.cfg.cpPresent
        ef := w.getLsbD 12 && s.cfg.fpuPresent
        pil := w.extractLsb' 8 4
        s := w.getLsbD 7
        ps := w.getLsbD 6
        et := w.getLsbD 5
        cwp := w.extractLsb' 0 5 } }

/-- A delayed write reaches its register (70_reset_and_hazards.md R820). -/
def commit (s : State) (p : PendingWrite) : State :=
  match p.reg with
  | .y => { s with y := p.value }
  | .psr => writePsr s p.value
  | .wim => { s with wim := p.value &&& wimMask s.cfg }
  | .tbr => { s with tbr := { s.tbr with tba := p.value.extractLsb' 12 20 } }
  | .asr n => { s with asr := s.asr.set n p.value }

/-- Every delayed write commits, in queue order (70_reset_and_hazards.md R820, commit-before-trap). -/
def commitAll (s : State) : State := { s.pending.foldl commit s with pending := [] }

/-- What every trap begins with (70_reset_and_hazards.md R820): the delayed writes commit, and with them the
hazard of the writes before the trap ends, since the handler reads the new values (43_state_regs_misc.md
R575 (6)). -/
def commitPending (s : State) : State := { commitAll s with recentWrites := [] }

/-- One turn of the delayed-write queue: every countdown falls by one, and the records that reach 0
commit in queue order (70_reset_and_hazards.md R820). -/
def tickPending (s : State) : State :=
  let turned := s.pending.map (fun p => { p with countdown := p.countdown - 1 })
  { (turned.filter (fun p => p.countdown == 0)).foldl commit s with
    pending := turned.filter (fun p => p.countdown != 0) }

/-- The fields of the PSR in which two values differ. -/
def psrChanges (a b : Psr) : List StateField :=
  (if a.icc = b.icc then [] else [.icc]) ++ (if a.ec = b.ec then [] else [.ec])
    ++ (if a.ef = b.ef then [] else [.ef]) ++ (if a.pil = b.pil then [] else [.pil])
    ++ (if a.s = b.s then [] else [.s]) ++ (if a.ps = b.ps then [] else [.ps])
    ++ (if a.et = b.et then [] else [.et]) ++ (if a.cwp = b.cwp then [] else [.cwp])

/-- The fields that writing a value to a register changes, the writes before it committed
(43_state_regs_misc.md R575 (2)). -/
def changedFields (s : State) (r : StateReg) (v : Word) : List StateField :=
  let a := commitAll s
  let b := commit a ⟨r, v, 0⟩
  match r with
  | .y => if b.y = a.y then [] else [.y]
  | .psr => psrChanges a.psr b.psr
  | .wim => if b.wim = a.wim then [] else [.wim]
  | .tbr => if b.tbr = a.tbr then [] else [.tba]
  | .asr n => if b.asr[n] = a.asr[n] then [] else [.asr n]

/-- A WRxxx is remembered for the three instructions behind it (70_reset_and_hazards.md R820; log 6). -/
def rememberWrite (s : State) (r : StateReg) (v : Word) : State :=
  { s with recentWrites := s.recentWrites ++ [⟨r, changedFields s r v, 4⟩] }

/-- An instruction is executed: the memory of the writes before it runs down (43_state_regs_misc.md R575;
log 6). -/
def tickRecent (xs : List RecentWrite) : List RecentWrite :=
  (xs.map (fun x => { x with left := x.left - 1 })).filter (fun x => x.left != 0)

/-- A WRxxx that does not trap: the write commits at once if WR_DELAY is 0, else it is visible to
instruction WR_DELAY + 1 and not before (70_reset_and_hazards.md R820; log 5). -/
def delayWrite (s : State) (r : StateReg) (v : Word) : State :=
  let t := rememberWrite s r v
  if s.cfg.wrDelay.val = 0 then commit t ⟨r, v, 0⟩
  else { t with pending := t.pending ++ [⟨r, v, s.cfg.wrDelay.val + 1⟩] }

/-! ### Traps (60_exceptions.md) -/

/-- The exceptions and interrupt requests of Table 7-1 (60_exceptions.md R705), with what each
records (R719 for fp_exception). -/
inductive Trap where
  | dataStoreError
  | instructionAccessMmuMiss
  | instructionAccessError
  | rRegisterAccessError
  | instructionAccessException
  | privilegedInstruction
  | illegalInstruction
  | fpDisabled
  | cpDisabled
  | unimplementedFlush
  | watchpointDetected
  | windowOverflow
  | windowUnderflow
  | memAddressNotAligned
  | fpException (record : FpRecord)
  | cpException
  | dataAccessError
  | dataAccessMmuMiss
  | dataAccessException
  | tagOverflow
  | divisionByZero
  | trapInstruction (number : BitVec 7)
  | interruptLevel (level : BitVec 4)
  | implementationDependent (n : BitVec 5)
  deriving DecidableEq, Repr

/-- The trap type of Table 7-1 (60_exceptions.md R705, R726, R730, R734). -/
def trapType : Trap → BitVec 8
  | .dataStoreError => 0x2B#8
  | .instructionAccessMmuMiss => 0x3C#8
  | .instructionAccessError => 0x21#8
  | .rRegisterAccessError => 0x20#8
  | .instructionAccessException => 0x01#8
  | .privilegedInstruction => 0x03#8
  | .illegalInstruction => 0x02#8
  | .fpDisabled => 0x04#8
  | .cpDisabled => 0x24#8
  | .unimplementedFlush => 0x25#8
  | .watchpointDetected => 0x0B#8
  | .windowOverflow => 0x05#8
  | .windowUnderflow => 0x06#8
  | .memAddressNotAligned => 0x07#8
  | .fpException _ => 0x08#8
  | .cpException => 0x28#8
  | .dataAccessError => 0x29#8
  | .dataAccessMmuMiss => 0x2C#8
  | .dataAccessException => 0x09#8
  | .tagOverflow => 0x0A#8
  | .divisionByZero => 0x2A#8
  | .trapInstruction n => (1#1 ++ n : BitVec (1 + 7))
  | .interruptLevel n => (1#4 ++ n : BitVec (4 + 4))
  | .implementationDependent n => (3#3 ++ n : BitVec (3 + 5))

/-- What an fp_exception trap writes besides tt (60_exceptions.md R719): ftt, and cexc for an
IEEE_754_exception. If the exception was deferred the FQ is loaded, with the FPop that caused it and the
FPops behind it that the FPU had not finished, and the FPU enters fp_exception (R755, 10_state.md R76). -/
def recordFp (s : State) (r : FpRecord) : State :=
  let s := { s with fsr := { s.fsr with ftt := r.ftt, cexc := r.cexc.getD s.fsr.cexc } }
  match s.fpuMode with
  | .pending _ =>
    { s with fpuMode := .exception, fq := s.fq ++ s.fpuQueue.map FpWork.entry, fpuQueue := [] }
  | _ => s

/-- What a trap records besides tt and the program counters; with cp_exception the outstanding exception of the
coprocessor is taken (60_exceptions.md R720). -/
def recordTrap (s : State) : Trap → State
  | .fpException r => recordFp s r
  | .cpException => { s with cpPending := false }
  | _ => s

/-- The program counters a trap saves: those of the next instruction to execute, which is the one
after it if it is annulled (60_exceptions.md R740). -/
def savedPcs (s : State) : Word × Word :=
  if s.annul then (s.npc, s.npc + 4#32) else (s.pc, s.npc)

/-- The part of trap entry that reset shares (60_exceptions.md R740): ET <- 0, PS <- S, CWP <- CWP - 1
without a test of the WIM, the program counters into r[17] and r[18] of the new window, annul <- 0,
S <- 1. -/
def enterWindow (s : State) : State :=
  let cwp := cwpBelow s.cfg s.psr.cwp
  let pcs := savedPcs s
  let s := { s with psr := { s.psr with et := false, ps := s.psr.s, s := true, cwp := cwp } }
  let s := setReg (setReg s 17#5 pcs.1) 18#5 pcs.2
  { s with annul := false }

/-- Trap entry with ET = 1 (60_exceptions.md R740): what the trap records, the new window, tt, then
PC <- TBR, nPC <- TBR + 4. -/
def enterTrap (t : Trap) (s : State) : State :=
  let s := enterWindow (recordTrap s t)
  let s := { s with tbr := { s.tbr with tt := trapType t } }
  { s with pc := tbrWord s, npc := tbrWord s + 4#32 }

/-- The processor halts in error_mode; no other state changes (60_exceptions.md R745). -/
def enterError (s : State) : State := { s with mode := .error, pbError := true }

/-- Taking a trap (60_exceptions.md R735, R740, R745): the delayed writes commit first
(70_reset_and_hazards.md R820); with ET = 0 the processor enters error_mode instead. DESIGN CHOICE: what the
instruction has done by then stays done in error_mode too, as R330, R335 and R349 say of a trap with ET = 1 (the
first word of a doubleword, FP_LOAD_FAULT_VALUE), where R745 has the state as it was before the instruction
(log 7). DESIGN CHOICE: with ET = 0 no trap that comes here writes tt, that of a RETT which is unimplemented or
meets r_register_access_error or a watchpoint among them: R745 has tt written when a RETT traps with ET = 0, but
names only the three checks of R541, which are `rettError`'s (log 44). -/
def takeTrap (t : Trap) (s : State) : State :=
  let s := commitPending s
  if s.psr.et then enterTrap t s else enterError s

/-- RETT with ET = 0 and a failing check: tt tells which, and the processor enters error_mode
(42_control_transfer.md R541). -/
def rettError (t : Trap) (s : State) : State :=
  let s := commitPending s
  enterError { s with tbr := { s.tbr with tt := trapType t } }

/-- The reset trap (70_reset_and_hazards.md R801 to R803): taken whatever ET is, tt unchanged, control
to address 0; the hidden state is emptied, PSO_mode cleared; the MMU is disabled with TSO in effect. The
fcc hazard ends too, of which R802, R825 and R826 say nothing: DESIGN CHOICE (log 35). -/
def resetTrap (s : State) : State :=
  let s := enterWindow (commitPending s)
  { s with
    mode := .execute, pbError := false, pc := 0#32, npc := 4#32
    fpuMode := .execute, fpuQueue := [], fq := [], cpPending := false, storeBarrierPending := false, psoMode := false
    blockByte := false, blockWord := false, staleWords := [], fccWindow := 0
    mmu := { s.mmu with e := false, pso := false } }

/-! ### What an instruction comes to -/

/-- What an instruction's meaning comes to: it completes, or it raises a trap (the state holds whatever
the spec lets the instruction change before the trap). -/
inductive Res where
  | done (s : State)
  | trap (t : Trap) (s : State)

/-- A meaning's outcome: a raised trap is taken in the same step (60_exceptions.md R737). -/
def Res.out : Res → Host.Outcome State Fault Refusal
  | .done s => .next s
  | .trap t s => .next (takeTrap t s)

/-- Raise privileged_instruction in user mode, else go on (60_exceptions.md R713). -/
def privileged (s : State) (k : Res) : Res :=
  if s.psr.s then k else .trap .privilegedInstruction s

/-- Raise fp_disabled unless the FPU is present and enabled (60_exceptions.md R714). -/
def fpEnabled (s : State) (k : Res) : Res :=
  if efOn s then k else .trap .fpDisabled s

/-- Raise cp_disabled unless the coprocessor is present and enabled (60_exceptions.md R715). -/
def cpEnabled (s : State) (k : Res) : Res :=
  if ecOn s then k else .trap .cpDisabled s

/-- Raise mem_address_not_aligned for a misaligned address, else go on (60_exceptions.md R718). -/
def aligned (s : State) (address : Word) (size : Size) (k : Res) : Res :=
  if address.toNat % size.alignment = 0 then k else .trap .memAddressNotAligned s

end Sys2Proof.Machine
end

