-- ==== Sys2Proof/Machine/Operands.lean ====
section
/-! DEFINITION. Every operand form of the instructions (30_encoding.md R233, R246): register or
immediate second operands, effective addresses, shift counts, trap numbers, branch targets, and the
f registers as single, double and quad operands (10_state.md R51). -/

namespace Sys2Proof.Machine

/-- operand2: r[rs2] or sign_ext(simm13) (41_integer_alu.md R400). -/
def operand2 (s : State) : Operand2 → Word
  | .reg rs2 => reg s rs2
  | .imm v => v.signExtend 32

/-- r[rs1] + operand2, modulo 2^32 (20_memory.md R100, 40_load_store.md R300). -/
def effectiveAddress (s : State) (rs1 : RegNum) (o : Operand2) : Word := reg s rs1 + operand2 s o

/-- shift_count: r[rs2]<4:0> or shcnt (41_integer_alu.md section 4). -/
def shiftCount (s : State) : ShiftOperand → Nat
  | .reg rs2 => ((reg s rs2).extractLsb' 0 5).toNat
  | .imm v => v.toNat

/-- The least significant seven bits of r[rs1] + r[rs2] or r[rs1] + software_trap# (42_control_transfer.md
R545). -/
def trapNumber (s : State) (rs1 : RegNum) : TrapOperand → BitVec 7
  | .reg rs2 => (reg s rs1 + reg s rs2).extractLsb' 0 7
  | .imm v => (reg s rs1 + v.signExtend 32).extractLsb' 0 7

/-- PC + sign_ext(disp22 || 00) (42_control_transfer.md R510). -/
def branchTarget (s : State) (disp : BitVec 22) : Word :=
  s.pc + (disp ++ 0#2 : BitVec (22 + 2)).signExtend 32

/-- PC + (disp30 || 00) (42_control_transfer.md R530). -/
def callTarget (s : State) (disp : BitVec 30) : Word := s.pc + (disp ++ 0#2 : BitVec (30 + 2))

/-- The address space of an ordinary load or store (20_memory.md R106). -/
def dataAsi (s : State) : BitVec 8 := if s.psr.s then 0x0B#8 else 0x0A#8

/-- The address space of an instruction fetch (20_memory.md R106). -/
def fetchAsi (s : State) : BitVec 8 := if s.psr.s then 0x09#8 else 0x08#8

/-- The even register of the pair register n belongs to (40_load_store.md R330). -/
def evenReg (n : RegNum) : RegNum := n &&& 0b11110#5

/-- The odd register of the pair register n belongs to (40_load_store.md R330). -/
def oddReg (n : RegNum) : RegNum := n ||| 1#5

/-- f[n] (10_state.md R50). -/
def freg (s : State) (n : RegNum) : Word := s.fregs[n.toFin]

/-- f[n] <- v. -/
def setFreg (s : State) (n : RegNum) (v : Word) : State := { s with fregs := s.fregs.set n.toFin v }

/-- The double f[n], f[n+1], the more significant word first; the low bit of n is ignored (10_state.md
R51, 44_fpop.md R602). -/
def fregDouble (s : State) (n : RegNum) : BitVec 64 :=
  (freg s (evenReg n) ++ freg s (oddReg n) : BitVec (32 + 32))

/-- The double f[n], f[n+1] <- v. -/
def setFregDouble (s : State) (n : RegNum) (v : BitVec 64) : State :=
  { s with
    fregs :=
      (s.fregs.set (evenReg n).toFin (v.extractLsb' 32 32)).set (oddReg n).toFin (v.extractLsb' 0 32) }

/-- Register k of the quadruple register n belongs to (44_fpop.md R602). -/
def quadReg (n k : RegNum) : RegNum := (n &&& 0b11100#5) ||| k

/-- The quad f[n] to f[n+3], the most significant word first (10_state.md R51, 44_fpop.md R602). -/
def fregQuad (s : State) (n : RegNum) : BitVec 128 :=
  (freg s (quadReg n 0#5) ++ freg s (quadReg n 1#5) ++ freg s (quadReg n 2#5) ++ freg s (quadReg n 3#5)
    : BitVec (32 + 32 + 32 + 32))

/-- The quad f[n] to f[n+3] <- v. -/
def setFregQuad (s : State) (n : RegNum) (v : BitVec 128) : State :=
  { s with
    fregs :=
      (((s.fregs.set (quadReg n 0#5).toFin (v.extractLsb' 96 32)).set (quadReg n 1#5).toFin
        (v.extractLsb' 64 32)).set (quadReg n 2#5).toFin (v.extractLsb' 32 32)).set
        (quadReg n 3#5).toFin (v.extractLsb' 0 32) }

end Sys2Proof.Machine
end

