-- ==== Sys2Proof/Machine/Mmu.lean ====
section
/-! DEFINITION. The physical memory map (20_memory.md R119) and the Reference MMU (21_reference_mmu.md):
the page descriptor cache, the table walk, the permission check, the fault registers, flush and probe,
and its registers. -/

namespace Sys2Proof.Machine

/-! ### The physical address space -/

/-- Does a region of MEMORY_MAP hold this physical address in this address space. -/
def regionHolds (asi : BitVec 8) (pa : Nat) (r : Region) : Bool :=
  (r.asis.isEmpty || r.asis.contains asi) && decide (r.base ≤ pa) && decide (pa < r.base + r.size)

/-- What stands at a physical address (20_memory.md R119): the first region that holds it decides; nothing
stands beyond PA_WIDTH. DESIGN CHOICE: an access whose bytes lie in two regions is judged by its first
byte's address alone, of which the spec says nothing (log 39). -/
def regionKind (c : Config) (asi : BitVec 8) (pa : Nat) : RegionKind :=
  if 2 ^ c.paWidth ≤ pa then .unmapped
  else
    match c.memoryMap.find? (regionHolds asi pa) with
    | some r => r.kind
    | none => .unmapped

/-- Can the MMU read a table entry here: tables stand in main memory (21_reference_mmu.md R165), seen as
the pass-through address spaces see it (R224; log 22). -/
def tableReadable (c : Config) (pa : Nat) : Bool :=
  regionKind c (0x20#8 + BitVec.ofNat 8 (pa / 2 ^ 32 % 16)) pa == .realMemory

/-! ### Table entries (21_reference_mmu.md R167 to R169) -/

/-- ET: 0 invalid, 1 PTD, 2 PTE, 3 reserved (R168). -/
def entryType (e : Word) : BitVec 2 := e.extractLsb' 0 2

/-- ACC of a PTE (R169). -/
def entryAcc (e : Word) : BitVec 3 := e.extractLsb' 2 3

/-- C of a PTE: the page is cacheable (R169). -/
def entryCacheable (e : Word) : Bool := e.getLsbD 7

/-- PPN of a PTE (R169). -/
def entryPpn (e : Word) : BitVec 24 := e.extractLsb' 8 24

/-- The R and M bits an access sets: R, and M for a store (R201). -/
def accessBits (store : Bool) : Word := if store then 0x60#32 else 0x20#32

/-- The width of the part of the virtual address below the index of a table at this level (R163). -/
def regionShift : Nat → Nat
  | 0 => 32
  | 1 => 24
  | 2 => 18
  | _ => 12

/-- The index into the table one level below (R163): VA[31:24], VA[23:18], VA[17:12]. -/
def tableIndex (va : Word) : Nat → Nat
  | 0 => (va.extractLsb' 24 8).toNat
  | 1 => (va.extractLsb' 18 6).toNat
  | _ => (va.extractLsb' 12 6).toNat

/-- Do two virtual addresses lie in one region of this level. -/
def sameRegion (level : Nat) (a b : Word) : Bool :=
  a.toNat / 2 ^ regionShift level == b.toNat / 2 ^ regionShift level

/-- Where the context table's entry for the current context stands (R175). -/
def rootPa (s : State) : Nat := (s.mmu.ctp.toNat * 64 + s.mmu.context.toNat * 4) % 2 ^ 36

/-- Where the entry of the next table stands (R167, R175). -/
def nextPa (e : Word) (va : Word) (level : Nat) : Nat :=
  ((e.extractLsb' 2 30).toNat * 64 + tableIndex va level * 4) % 2 ^ 36

/-! ### The page descriptor cache (21_reference_mmu.md R176) -/

/-- Entries may be replaced at any time: which ones is free (R176; log 17). -/
def pdcEvict (s : State) : State :=
  { s with
    mmu :=
      { s.mmu with
        pdc := (s.mmu.pdc.zipIdx.filter (fun x => !Config.pdcReplaced s.freeDraws x.2)).map Prod.fst }
    freeDraws := s.freeDraws + 1 }

/-- Is a cached entry's context tag that of the current context, or its page a supervisor page whose
context is ignored (R176). -/
def contextMatches (s : State) (x : PdcEntry) : Bool :=
  x.context == s.mmu.context
    || (s.cfg.pdcIgnoresContext && entryType x.entry == 2#2 && decide (6#3 ≤ entryAcc x.entry))

/-- Does a cached entry stand for this virtual address in the current context. -/
def pdcMatches (s : State) (va : Word) (x : PdcEntry) : Bool :=
  contextMatches s x && sameRegion x.level x.va va

/-- The cached PTE that translates an address, if any. -/
def pdcPte (s : State) (va : Word) : Option PdcEntry :=
  s.mmu.pdc.find? (fun x => entryType x.entry == 2#2 && pdcMatches s va x)

/-- The cached PTD for an address at a level, if any. -/
def pdcPtd (s : State) (va : Word) (level : Nat) : Option PdcEntry :=
  s.mmu.pdc.find? (fun x => entryType x.entry == 1#2 && x.level == level && pdcMatches s va x)

/-! ### The table walk (21_reference_mmu.md R175) -/

/-- What a table walk comes to: a PTE, its level and place, with the PTDs read on the way; or a fault. DESIGN
CHOICE: the PTDs read on the way to a fault are dropped, of which R176 says nothing (log 17). -/
inductive Walk where
  | pte (entry : Word) (level entryPa : Nat) (ptds : List PdcEntry)
  | fault (ft : BitVec 3) (level : Nat) (bus : Bool)
  deriving DecidableEq, Repr

/-- Does the environment present an external bus error on the MMU's read of the entry at this level, on a walk
for this access or of its probe (00_scope.md R13 (4); R175, R188, R199; log 26). DESIGN CHOICE: it can present
none on a walk of the second access of an instruction; there is one only if the walk of the first was a fault
that NF = 1 suppressed (log 26). -/
def tableErrorPresented (s : State) (kind : AccessKind) (level : Nat) : Bool :=
  match kind with
  | .fetch => s.now.machineCheck == some (.instructionTableError (BitVec.ofNat 2 level))
  | .first => s.now.machineCheck == some (.dataTableError (BitVec.ofNat 2 level))
  | .second => false

/-- The entry at a level: a cached PTD, or the word in memory; `none` is a bus error, one that the environment
presents on the read or that of a table outside main memory (log 22). -/
def readEntry (s : State) (kind : AccessKind) (va : Word) (level pa : Nat) : Option Word :=
  match pdcPtd s va level with
  | some x => some x.entry
  | none =>
    if tableErrorPresented s kind level || !tableReadable s.cfg pa then none else some (s.mem.read32 pa)

/-- The walk from a table entry on, `below` levels above level 3 (R175). -/
def walkFrom (s : State) (kind : AccessKind) (va : Word) : Nat → Nat → List PdcEntry → Walk
  | 0, pa, seen =>
    match readEntry s kind va 3 pa with
    | none => .fault 4#3 3 true
    | some e =>
      if entryType e = 0#2 then .fault 1#3 3 false
      else if entryType e = 2#2 then .pte e 3 pa seen
      else .fault 4#3 3 false
  | below + 1, pa, seen =>
    let level := 3 - (below + 1)
    match readEntry s kind va level pa with
    | none => .fault 4#3 level true
    | some e =>
      if entryType e = 0#2 then .fault 1#3 level false
      else if entryType e = 2#2 then .pte e level pa seen
      else if entryType e = 3#2 then .fault 4#3 level false
      else
        let seen :=
          if s.cfg.pdcCachesPtds && (pdcPtd s va level).isNone then
            ⟨s.mmu.context, va, level, e, pa⟩ :: seen
          else seen
        walkFrom s kind va below (nextPa e va level) seen

/-- The walk for an address (R175). -/
def walk (s : State) (kind : AccessKind) (va : Word) : Walk := walkFrom s kind va 3 (rootPa s) []

/-- The PDC after a walk that found a PTE: that PTE, and the PTDs if the PDC caches them (R176; log 17). -/
def pdcInsert (s : State) (xs : List PdcEntry) : State :=
  { s with mmu := { s.mmu with pdc := xs ++ s.mmu.pdc } }

/-! ### Permissions and faults (21_reference_mmu.md R185 to R192) -/

/-- AT: the access type of an access to one of the four architectural spaces (R188). -/
def accessType (asi : BitVec 8) (store : Bool) : BitVec 3 :=
  let space : BitVec 3 :=
    match asi.toNat with
    | 0x8 => 2#3
    | 0x9 => 3#3
    | 0xA => 0#3
    | _ => 1#3
  if store then space + 4#3 else space

/-- The table of R186: the fault type of an access of type AT to a page with this ACC; 0 is none. -/
def permissionFault (access acc : BitVec 3) : BitVec 3 :=
  match access.toNat, acc.toNat with
  | 0, 4 => 2#3
  | 0, 6 => 3#3
  | 0, 7 => 3#3
  | 0, _ => 0#3
  | 1, 4 => 2#3
  | 1, _ => 0#3
  | 2, 0 => 2#3
  | 2, 1 => 2#3
  | 2, 5 => 2#3
  | 2, 6 => 3#3
  | 2, 7 => 3#3
  | 2, _ => 0#3
  | 3, 0 => 2#3
  | 3, 1 => 2#3
  | 3, 5 => 2#3
  | 3, _ => 0#3
  | 4, 1 => 0#3
  | 4, 3 => 0#3
  | 4, 6 => 3#3
  | 4, 7 => 3#3
  | 4, _ => 2#3
  | 5, 1 => 0#3
  | 5, 3 => 0#3
  | 5, 5 => 0#3
  | 5, 7 => 0#3
  | 5, _ => 2#3
  | 6, 3 => 0#3
  | 6, 6 => 3#3
  | 6, 7 => 3#3
  | 6, _ => 2#3
  | _, 3 => 0#3
  | _, 7 => 0#3
  | _, _ => 2#3

/-- May a fault of this class overwrite the recorded one (R189 (c), (d)). -/
def faultOverwrites (recorded : Option FaultClass) (new : FaultClass) : Bool :=
  match recorded, new with
  | some .data, .instruction => false
  | some .table, .instruction => false
  | some .table, .data => false
  | _, _ => true

/-- A fault is recorded in the Fault Status and Fault Address Registers (R187 to R191; log 23, log 24).
After a bus error the external bus error bits are free (log 22). -/
def recordFault (s : State) (cls : FaultClass) (level : BitVec 2) (access ft : BitVec 3) (bus : Bool)
    (va : Word) : State :=
  if faultOverwrites s.mmu.statusClass cls then
    { s with
      mmu :=
        { s.mmu with
          status :=
            { ebe := if bus then Config.busErrorBits s.freeDraws else 0#8
              level := level, access := access, ft := ft, fav := true
              ow := s.mmu.statusClass == some cls }
          statusClass := some cls
          far := va }
      freeDraws := s.freeDraws + 1 }
  else s

/-- The class of a fault on an access to an address space (R185, R189). -/
def faultClass (asi : BitVec 8) : FaultClass :=
  if asi = 0x08#8 ∨ asi = 0x09#8 then .instruction else .data

/-! ### Translation (21_reference_mmu.md R203) -/

/-- The bits of the PPN that must be zero are zero (R174). -/
def ppnAligned (e : Word) (level : Nat) : Bool :=
  (entryPpn e).toNat % 2 ^ (regionShift level - 12) == 0

/-- The physical address under a PTE (R174); free if the PPN is misaligned (log 19). -/
def pagePa (e : Word) (level : Nat) (va : Word) : BitVec 36 :=
  if ppnAligned e level then
    (entryPpn e ++ 0#12 : BitVec (24 + 12))
      ||| BitVec.ofNat 36 (va.toNat % 2 ^ regionShift level)
  else Config.misalignedPagePa e level va

/-- R, and M for a store, are set in the cached entry and in the entry in memory, each if it is not set in the
cached one (R201). DESIGN CHOICE: this read and write of the entry in memory meet no error of memory, of
which R201 says nothing (log 22). -/
def markAccessed (s : State) (x : PdcEntry) (store : Bool) : State :=
  let bits := accessBits store &&& ~~~x.entry
  if bits = 0#32 then s
  else
    { s with
      mem := s.mem.write32 x.entryPa (s.mem.read32 x.entryPa ||| bits)
      mmu :=
        { s.mmu with
          pdc := s.mmu.pdc.map (fun y => if y = x then { y with entry := y.entry ||| bits } else y) } }

/-- What translating an access comes to; a permission fault still knows the physical address. -/
inductive Translation where
  | ok (pa : BitVec 36) (level : Nat) (s : State)
  | fault (ft : BitVec 3) (pa : Option (BitVec 36)) (s : State)
  deriving DecidableEq, Repr

/-- Steps (3) to (5) of R203 with the PTE in the PDC. -/
def checkedAccess (s : State) (x : PdcEntry) (asi : BitVec 8) (va : Word) (store : Bool) :
    Translation :=
  let ft := permissionFault (accessType asi store) (entryAcc x.entry)
  let pa := pagePa x.entry x.level va
  if ft = 0#3 then .ok pa x.level (markAccessed s x store)
  else .fault ft (some pa) (recordFault s (faultClass asi) (BitVec.ofNat 2 x.level) (accessType asi store) ft false va)

/-- The translation of an access with the PDC as it is (R203). DESIGN CHOICE: a walk that ends in a fault leaves
the PDC as it was; the PTDs read on the way do not enter it even where it caches PTDs, of which R176 says nothing
(log 17). -/
def translateCached (s : State) (kind : AccessKind) (asi : BitVec 8) (va : Word) (store : Bool) : Translation :=
  match pdcPte s va with
  | some x => checkedAccess s x asi va store
  | none =>
    match walk s kind va with
    | .pte e level pa ptds =>
      let x : PdcEntry := ⟨s.mmu.context, va, level, e, pa⟩
      checkedAccess (pdcInsert s (x :: ptds)) x asi va store
    | .fault ft level bus =>
      .fault ft none
        (recordFault s (if bus then .table else faultClass asi) (BitVec.ofNat 2 level)
          (accessType asi store) ft bus va)

/-- The translation of one access with the MMU enabled (R203), entries of the PDC having been replaced
since the last (R176; log 17). -/
def translate (s : State) (kind : AccessKind) (asi : BitVec 8) (va : Word) (store : Bool) : Translation :=
  translateCached (pdcEvict s) kind asi va store

/-- Are virtual addresses translated (20_memory.md R118, R164). -/
def translating (s : State) : Bool := s.cfg.mmuPresent && s.mmu.e

/-- The physical address of a virtual one, if it has one now: by the PTE in the PDC or in the tables, whatever
access the page allows (R203). -/
def physicalOf (s : State) (va : Word) : Option Nat :=
  if translating s then
    match pdcPte s va with
    | some x => some (pagePa x.entry x.level va).toNat
    | none =>
      match walk s .second va with
      | .pte e level _ _ => some (pagePa e level va).toNat
      | .fault _ _ _ => none
  else some va.toNat

/-- Is a fault on an access to this address space kept from the processor (R182). -/
def faultSuppressed (s : State) (asi : BitVec 8) : Bool := s.mmu.nf && asi != 0x09#8

/-! ### Flush (21_reference_mmu.md R196 to R198) -/

/-- Is a cached PTE the object of a flush of this type (R196, R197). -/
def flushesPte (s : State) (kind : Nat) (va : Word) (x : PdcEntry) : Bool :=
  let ctx := x.context == s.mmu.context
  let supervisor := decide (6#3 ≤ entryAcc x.entry)
  match kind with
  | 0 => (supervisor || ctx) && sameRegion 3 x.va va && x.level == 3
  | 1 => (supervisor || ctx) && sameRegion 2 x.va va && decide (2 ≤ x.level)
  | 2 => (supervisor || ctx) && sameRegion 1 x.va va && decide (1 ≤ x.level)
  | 3 => !supervisor && ctx
  | 4 => true
  | _ => false

/-- Is a cached PTD the object of a flush of this type (R196, R198). -/
def flushesPtd (s : State) (kind : Nat) (va : Word) (x : PdcEntry) : Bool :=
  let ctx := x.context == s.mmu.context
  match kind with
  | 0 => ctx && sameRegion 3 x.va va && x.level == 3
  | 1 => ctx && sameRegion 2 x.va va && decide (2 ≤ x.level)
  | 2 => ctx && sameRegion 1 x.va va && decide (1 ≤ x.level)
  | 3 => ctx
  | 4 => true
  | _ => false

/-- A flush: the type is VA[11:8] (R195). DESIGN CHOICE: it acts whether or not the MMU is enabled (log 20). -/
def mmuFlush (s : State) (va : Word) : State :=
  let kind := (va.extractLsb' 8 4).toNat
  { s with
    mmu :=
      { s.mmu with
        pdc :=
          s.mmu.pdc.filter (fun x =>
            !(if entryType x.entry = 2#2 then flushesPte s kind va x else flushesPtd s kind va x)) } }

/-! ### Probe (21_reference_mmu.md R199, R200) -/

/-- A probe of type 0 to 3 from a table entry on, `below` levels above the probed one. The second
component is the level of a bus error. -/
def probeFrom (s : State) (kind : AccessKind) (va : Word) (target : Nat) : Nat → Nat → Word × Option Nat
  | 0, pa =>
    match readEntry s kind va target pa with
    | none => (0#32, some target)
    | some e =>
      if entryType e = 3#2 ∨ (target = 3 ∧ entryType e = 1#2) then (0#32, none) else (e, none)
  | below + 1, pa =>
    let level := target - (below + 1)
    match readEntry s kind va level pa with
    | none => (0#32, some level)
    | some e =>
      if entryType e = 1#2 then probeFrom s kind va target below (nextPa e va level) else (0#32, none)

/-- A memory error of a probe: the fault registers are updated and no fault is signalled (R199). DESIGN CHOICE:
the Fault Address Register takes the whole address of the probe, the type in VA[11:8] with it and not VFPA
alone, which R191, R195 and R199 leave open (log 20). -/
def probeBusError (s : State) (va : Word) (level : Nat) : State :=
  recordFault s .table (BitVec.ofNat 2 level) (accessType 0x0B#8 false) 4#3 true va

/-- A probe with the PDC as it is: the type is VA[11:8] (R195); the PDC is checked first; a type 4 probe brings
the PTE into the PDC; types 5 to 0xF return a free value (R199; log 20). DESIGN CHOICE: it walks the tables, and
its memory error is recorded, whether or not the MMU is enabled; and a type 4 probe never sets the PTE's R bit,
which R199 lets an implementation do (log 20). DESIGN CHOICE: one whose walk ends in a fault brings nothing into
the PDC, the PTDs it read on the way among it (log 17). -/
def probeCached (s : State) (kind : AccessKind) (va : Word) : Word × State :=
  let type := (va.extractLsb' 8 4).toNat
  if 4 < type then (Config.reservedProbe s.freeDraws, { s with freeDraws := s.freeDraws + 1 })
  else if type = 4 then
    match pdcPte s va with
    | some x => (x.entry, s)
    | none =>
      match walk s kind va with
      | .pte e level pa ptds => (e, pdcInsert s (⟨s.mmu.context, va, level, e, pa⟩ :: ptds))
      | .fault _ level bus => (0#32, if bus then probeBusError s va level else s)
  else
    let target := 3 - type
    match s.mmu.pdc.find? (fun x => x.level == target && pdcMatches s va x) with
    | some x => (x.entry, s)
    | none =>
      match probeFrom s kind va target target (rootPa s) with
      | (e, none) => (e, s)
      | (e, some level) => (e, probeBusError s va level)

/-- A probe, entries of the PDC having been replaced since the last access (R176, R199; log 17). -/
def mmuProbe (s : State) (kind : AccessKind) (va : Word) : Word × State := probeCached (pdcEvict s) kind va

/-! ### The MMU's registers (21_reference_mmu.md R180 to R191, R218) -/

/-- The Control Register (R181). -/
def mmuControlWord (s : State) : Word :=
  (s.cfg.mmuImpl ++ s.cfg.mmuVer ++ (s.mmu.sc &&& s.cfg.mmuScMask) ++ BitVec.ofBool s.mmu.pso ++ 0#5
    ++ BitVec.ofBool s.mmu.nf ++ BitVec.ofBool s.mmu.e : BitVec (4 + 4 + 16 + 1 + 5 + 1 + 1))

/-- The Fault Status Register (R187). -/
def mmuStatusWord (f : FaultStatus) : Word :=
  (0#14 ++ f.ebe ++ f.level ++ f.access ++ f.ft ++ BitVec.ofBool f.fav ++ BitVec.ofBool f.ow
    : BitVec (14 + 8 + 2 + 3 + 3 + 1 + 1))

/-- The implemented bits of the Context Register (R184). -/
def contextMask (c : Config) : Word := BitVec.ofNat 32 (2 ^ c.mmuContextBits.val - 1)

/-- Read an MMU register; VA[11:8] selects it; reading the Fault Status Register clears it (R180, R187,
R218). `none`: no register stands there (log 21). -/
def mmuRegisterRead (s : State) (va : Word) : Option (Word × State) :=
  match (va.extractLsb' 8 4).toNat with
  | 0 => some (mmuControlWord s, s)
  | 1 => some ((s.mmu.ctp ++ 0#2 : BitVec (30 + 2)), s)
  | 2 => some (s.mmu.context &&& contextMask s.cfg, s)
  | 3 =>
    some
      (mmuStatusWord s.mmu.status,
        { s with
          mmu := { s.mmu with status := ⟨0#8, 0#2, 0#3, 0#3, false, false⟩, statusClass := none } })
  | 4 => some (s.mmu.far, s)
  | _ => none

/-- Write an MMU register; VA[11:8] selects it; writes to the fault registers are ignored (R181 to R184,
R187, R191, R218). PSO_mode follows the PSO bit, if the implementation provides PSO (20_memory.md R131). -/
def mmuRegisterWrite (s : State) (va : Word) (v : Word) : Option State :=
  match (va.extractLsb' 8 4).toNat with
  | 0 =>
    some
      { s with
        mmu :=
          { s.mmu with
            sc := v.extractLsb' 8 16 &&& s.cfg.mmuScMask, pso := v.getLsbD 7, nf := v.getLsbD 1,
            e := v.getLsbD 0 }
        psoMode := s.cfg.psoSupported && v.getLsbD 7 }
  | 1 => some { s with mmu := { s.mmu with ctp := v.extractLsb' 2 30 } }
  | 2 => some { s with mmu := { s.mmu with context := v &&& contextMask s.cfg } }
  | 3 => some s
  | 4 => some s
  | _ => none

end Sys2Proof.Machine
end

