-- ==== Sys2Proof/Machine/Access.lean ====
section
/-! DEFINITION. One memory access: the address space it belongs to (20_memory.md R105 to R109;
21_reference_mmu.md R215 to R225), translation, the memory map, the machine checks the environment
presents (60_exceptions.md R721, R727, R731, R732; log 26), I/O locations (20_memory.md R121; log 39), and
the instruction buffer (20_memory.md R140 to R142). An access is routed once (`route`); a doubleword's two
words take the one route (20_memory.md R113). -/

namespace Sys2Proof.Machine

/-- What an access comes to: a value and the state, or an exception. -/
inductive MemRes (α : Type) where
  | ok (value : α) (s : State)
  | fault (t : Trap) (s : State)

/-- Go on with the value of an access; its exception is the instruction's (20_memory.md R115). -/
def MemRes.bind {α : Type} (m : MemRes α) (k : α → State → Res) : Res :=
  match m with
  | .ok v s => k v s
  | .fault t s => .trap t s

/-- Go on with the value of a part of an access. -/
def MemRes.andThen {α β : Type} (m : MemRes α) (k : α → State → MemRes β) : MemRes β :=
  match m with
  | .ok v s => k v s
  | .fault t s => .fault t s

/-- The blocking error of an access (60_exceptions.md R711, R722). -/
def accessException : AccessKind → Trap
  | .fetch => .instructionAccessException
  | _ => .dataAccessException

/-- The peremptory error of an access (60_exceptions.md R721, R727). -/
def accessError : AccessKind → Trap
  | .fetch => .instructionAccessError
  | _ => .dataAccessError

/-- Does the environment present an MMU miss on this access; the Reference MMU has none (60_exceptions.md
R731, R732; 21_reference_mmu.md R192). -/
def missPresented (s : State) (kind : AccessKind) : Option Trap :=
  if s.cfg.mmuPresent then none
  else
    match kind with
    | .fetch =>
      if s.now.machineCheck = some .instructionAccessMmuMiss then some .instructionAccessMmuMiss
      else none
    | .first =>
      if s.now.machineCheck = some .dataAccessMmuMiss then some .dataAccessMmuMiss else none
    | .second => none

/-- Does the environment present a peremptory error on this access (60_exceptions.md R721, R727). -/
def errorPresented (s : State) : AccessKind → Bool
  | .fetch => s.now.machineCheck == some .instructionAccessError
  | .first => s.now.machineCheck == some (.dataAccessError false)
  | .second => s.now.machineCheck == some (.dataAccessError true)

/-- Does memory report an access exception on this access (00_scope.md R13 (4); 60_exceptions.md R711,
R722; 40_load_store.md R330, R349). -/
def exceptionPresented (s : State) : AccessKind → Bool
  | .fetch => s.now.machineCheck == some .instructionAccessException
  | .first => s.now.machineCheck == some (.dataAccessException false)
  | .second => s.now.machineCheck == some (.dataAccessException true)

/-- What the environment presents on an access behind which no MMU stands (60_exceptions.md R721, R722). -/
def presented (s : State) (kind : AccessKind) : Option Trap :=
  if errorPresented s kind then some (accessError kind)
  else if exceptionPresented s kind then some (accessException kind)
  else none

/-- Does the MMU find an internal inconsistency on this access (21_reference_mmu.md R188). -/
def internalPresented (s : State) : AccessKind → Bool
  | .fetch => s.now.machineCheck == some .instructionInternalError
  | .first => s.now.machineCheck == some .dataInternalError
  | .second => false

/-- What an address space is (20_memory.md R105, R108; 21_reference_mmu.md R215 to R225; log 25). -/
inductive AsiKind where
  /-- One of the four architectural spaces. -/
  | normal
  | flushProbe
  | mmuRegister
  /-- Physical memory with these upper four address bits: a pass-through space of the Reference MMU
  (21_reference_mmu.md R224), or a space of ASI_MAP. -/
  | physical (upper : BitVec 4) (passThrough : Bool)
  | cacheFlush
  | device
  /-- No space: an access raises data_access_exception (R108, D11). -/
  | undefined
  deriving DecidableEq, Repr

/-- The four architectural address spaces (20_memory.md R105). -/
def architecturalAsis : List (BitVec 8) := [0x08#8, 0x09#8, 0x0A#8, 0x0B#8]

/-- The address space an ASI is taken for by an implementation that decodes only some of its bits
(20_memory.md R108): one of the four if its decoded bits are theirs. DESIGN CHOICE: each of the four stands for
itself, also where the decoded bits do not tell them apart, and another ASI for the first whose bits it has
(log 25). -/
def decodedAsi (c : Config) (asi : BitVec 8) : BitVec 8 :=
  if architecturalAsis.contains asi then asi
  else
    (architecturalAsis.find? (fun k => k &&& c.asiDecodeMask == asi &&& c.asiDecodeMask)).getD
      (asi &&& c.asiDecodeMask)

/-- What an address space is. DESIGN CHOICE: a space other than the four is found in ASI_MAP and Appendix I by
its decoded bits, so that one whose number has a bit that ASI_DECODE_MASK leaves out is no longer found under
it; R7 and R108 say nothing of such a mask (log 25). DESIGN CHOICE: the cache-flush spaces are there with every
Reference MMU, as R222, 40_load_store.md R352 and 92_eei_decisions.md D11 have them, and not absent unless
ASI_MAP says so, as 93_implementation_defined.md I47 has its default (log 25). -/
def asiKind (c : Config) (asi : BitVec 8) : AsiKind :=
  let a := decodedAsi c asi
  if architecturalAsis.contains a then .normal
  else
    match c.asiMap.lookup a with
    | some (.memory upper) => .physical upper false
    | some .cacheFlush => .cacheFlush
    | some .device => .device
    | some .absent => .undefined
    | none =>
      if !c.mmuPresent then .undefined
      else if a = 0x03#8 then .flushProbe
      else if a = 0x04#8 then .mmuRegister
      else if a.extractLsb' 4 4 = 2#4 then .physical (a.extractLsb' 0 4) true
      else if (0x10#8 ≤ a ∧ a ≤ 0x14#8) ∨ (0x18#8 ≤ a ∧ a ≤ 0x1C#8) then .cacheFlush
      else .undefined

/-- An error of an access that no table entry caused: an access bus error, FT = 5, or an internal error,
FT = 6 (21_reference_mmu.md R188, R192). R188 defines L only for an entry that caused the fault: the level
recorded is free (log 22). -/
def errorRecorded (s : State) (asi : BitVec 8) (ft : BitVec 3) (va : Word) (store : Bool) : State :=
  recordFault s (faultClass asi) (Config.faultLevel s.freeDraws) (accessType asi store) ft (ft == 5#3) va

/-- An access bus error (21_reference_mmu.md R188). -/
def busError (s : State) (asi : BitVec 8) (va : Word) (store : Bool) : State :=
  errorRecorded s asi 5#3 va store

/-- Does the C bit of the PTE that translated an access make it an I/O access (20_memory.md R120 (2),
21_reference_mmu.md R169). -/
def ioByEntry (s : State) (asi : BitVec 8) (va : Word) : Bool :=
  s.cfg.uncacheableIsIo && translating s && architecturalAsis.contains asi
    && (pdcPte s va).any (fun x => !entryCacheable x.entry)

/-- What an access finds at a physical address: what MEMORY_MAP says of it, or an I/O location by its PTE
(20_memory.md R119, R120). DESIGN CHOICE: whether C = 0 alone makes an I/O access is `Config.uncacheableIsIo`,
by default not, and where nothing stands nothing does (log 42). -/
def locationKind (s : State) (asi : BitVec 8) (va : Word) (pa : Nat) : RegionKind :=
  match regionKind s.cfg asi pa with
  | .unmapped => .unmapped
  | r => if ioByEntry s asi va then .io else r

/-! ### Where an access goes -/

/-- Where an access goes once its address is known: to a physical address, with whether the MMU records its
errors; nowhere, a fault of the MMU being suppressed (21_reference_mmu.md R182), with the physical address
if it is known; to a device's address space; into the MMU; to a cache. -/
inductive Route where
  | memory (asi : BitVec 8) (pa : Nat) (mmu : Bool)
  | suppressed (asi : BitVec 8) (pa : Option Nat)
  | device (asi : BitVec 8)
  | flushProbe
  | mmuRegister
  | cacheFlush
  deriving DecidableEq, Repr

/-- The route of the second word of a doubleword (20_memory.md R113): the one of the first, four bytes on. -/
def Route.next : Route → Route
  | .memory asi pa mmu => .memory asi (pa + 4) mmu
  | .suppressed asi pa => .suppressed asi (pa.map (· + 4))
  | r => r

/-- A fault of the MMU: raised, or with NF = 1 suppressed (21_reference_mmu.md R182). -/
def mmuFault (s : State) (asi : BitVec 8) (t : Trap) (pa : Option (BitVec 36)) : MemRes Route :=
  if faultSuppressed s asi then .ok (.suppressed asi (pa.map BitVec.toNat)) s else .fault t s

/-- The route of a translated access (21_reference_mmu.md R192, R203); an internal error comes before all
else (R190). The write of an atomic load-store uses the entry its read has brought into the PDC. -/
def translatedRoute (s : State) (kind : AccessKind) (asi : BitVec 8) (va : Word) (store : Bool) :
    MemRes Route :=
  if internalPresented s kind then
    mmuFault (errorRecorded s asi 6#3 va store) asi (accessError kind) none
  else
    match (if kind = .second then translateCached s kind asi va store else translate s kind asi va store) with
    | .fault _ pa s => mmuFault s asi (accessException kind) pa
    | .ok pa _ s => .ok (.memory asi pa.toNat true) s

/-- Where an access goes (20_memory.md R105 to R109, R118; 21_reference_mmu.md R215 to R225). The errors of the
MMU's pass-through spaces are recorded by it (R188, R224); none is while it is disabled (R164). DESIGN CHOICE:
the MMU finds an internal error, FT = 6, on translated accesses only; one presented with an access to any other
space, a pass-through one too, is ignored, of which R188 says nothing (log 22). -/
def route (s : State) (kind : AccessKind) (asi : BitVec 8) (va : Word) (store : Bool) : MemRes Route :=
  match missPresented s kind with
  | some t => .fault t s
  | none =>
    let a := decodedAsi s.cfg asi
    match asiKind s.cfg asi with
    | .normal =>
      if translating s then translatedRoute s kind a va store else .ok (.memory a va.toNat false) s
    | .physical upper passThrough =>
      .ok (.memory a (upper ++ va : BitVec (4 + 32)).toNat (passThrough && translating s)) s
    | .flushProbe => .ok .flushProbe s
    | .mmuRegister => .ok .mmuRegister s
    | .device => .ok (.device a) s
    | .cacheFlush => .ok .cacheFlush s
    | .undefined => .fault (accessException kind) s

/-! ### I/O locations -/

/-- The word on the data lines of a read of an I/O location: the environment's, free if it drives nothing
(00_scope.md R13 (4); log 39). -/
def ioWord (s : State) (kind : AccessKind) : Word :=
  match s.now.io with
  | none => Config.ioUndriven s.freeDraws
  | some d =>
    match kind with
    | .fetch => d.fetch
    | .first => d.first
    | .second => d.second

/-- The access is performed, behind those before it in program order (20_memory.md R121). -/
def ioPerformed (s : State) (store : Bool) (asi : BitVec 8) (a : Nat) (size : Size) (v : Word) : State :=
  { s with ioTrace := s.ioTrace ++ [⟨store, asi, a, size, v⟩] }

/-- Read an I/O location (20_memory.md R121). -/
def ioRead (s : State) (kind : AccessKind) (asi : BitVec 8) (a : Nat) (size : Size) : MemRes Word :=
  let v := size.narrow (ioWord s kind)
  .ok v (ioPerformed { s with freeDraws := s.freeDraws + 1 } false asi a size v)

/-- Write an I/O location (20_memory.md R121). -/
def ioWrite (s : State) (asi : BitVec 8) (a : Nat) (size : Size) (v : Word) : MemRes Unit :=
  .ok () (ioPerformed s true asi a size (size.narrow v))

/-! ### Reading -/

/-- What a load or fetch reads under a suppressed fault of the MMU: free, but of the size of the access
(21_reference_mmu.md R182; log 18). -/
def suppressedRead (s : State) (size : Size) : MemRes Word :=
  .ok (size.narrow (Config.noFaultLoad s.freeDraws)) { s with freeDraws := s.freeDraws + 1 }

/-- A peremptory error on a read: raised, or behind the MMU recorded, and with NF = 1 suppressed
(60_exceptions.md R721, R727; 21_reference_mmu.md R182, R192). -/
def readError (s : State) (kind : AccessKind) (asi : BitVec 8) (va : Word) (size : Size) (mmu : Bool) :
    MemRes Word :=
  if mmu then
    let s := busError s asi va false
    if faultSuppressed s asi then suppressedRead s size else .fault (accessError kind) s
  else .fault (accessError kind) s

/-- Read a physical address (20_memory.md R119). DESIGN CHOICE: an access exception that memory reports, unlike
an error, is raised whatever NF is and reaches no fault register, behind the MMU too (log 22). -/
def physicalRead (s : State) (kind : AccessKind) (asi : BitVec 8) (va : Word) (pa : Nat) (size : Size)
    (mmu : Bool) : MemRes Word :=
  if errorPresented s kind then readError s kind asi va size mmu
  else if exceptionPresented s kind then .fault (accessException kind) s
  else
    match locationKind s asi va pa with
    | .realMemory => .ok (s.mem.read pa size) s
    | .rom => .ok (s.mem.read pa size) s
    | .io => ioRead s kind asi pa size
    | .unmapped => .fault (accessException kind) s

/-- The read of a device's address space. -/
def deviceRead (s : State) (kind : AccessKind) (asi : BitVec 8) (va : Word) (size : Size) : MemRes Word :=
  match presented s kind with
  | some t => .fault t s
  | none => ioRead s kind asi va.toNat size

/-- The read of a routed access: the value, zero-extended to a word. DESIGN CHOICE: of an access to the MMU or
to a cache the environment can present no error and no exception but on the table reads of a probe (log 26). -/
def readAt (s : State) (kind : AccessKind) (r : Route) (va : Word) (size : Size) : MemRes Word :=
  match r with
  | .memory asi pa mmu => physicalRead s kind asi va pa size mmu
  | .suppressed _ _ => suppressedRead s size
  | .device asi => deviceRead s kind asi va size
  | .flushProbe =>
    if size = .word then
      let p := mmuProbe s kind va
      .ok p.1 p.2
    else .fault (accessException kind) s
  | .mmuRegister =>
    if size = .word then
      match mmuRegisterRead s va with
      | some p => .ok p.1 p.2
      | none => .fault (accessException kind) s
    else .fault (accessException kind) s
  | .cacheFlush => .fault (accessException kind) s

/-- memory_read (20_memory.md R103, R104). -/
def memRead (s : State) (kind : AccessKind) (asi : BitVec 8) (va : Word) (size : Size) : MemRes Word :=
  (route s kind asi va false).andThen fun r s => readAt s kind r va size

/-! ### Writing -/

/-- The word at a physical address is about to change: with IBUF_MODEL = stale_allowed the instruction
buffer may keep the old one (20_memory.md R140; log 27). -/
def keepStale (s : State) (va : Word) (pa : Nat) : State :=
  if s.cfg.ibufStale then
    let word := pa / 4 * 4
    { s with staleWords := s.staleWords ++ [⟨va, word, s.mem.read32 word, none⟩] }
  else s

/-- Memory is written. -/
def storeAt (s : State) (va : Word) (pa : Nat) (v : Word) (size : Size) : State :=
  { keepStale s va pa with mem := s.mem.write pa v size }

/-- A store under a suppressed fault of the MMU: whether it is performed is free, as far as its physical
address is known (21_reference_mmu.md R182; log 18). -/
def suppressedWrite (s : State) (asi : BitVec 8) (va : Word) (pa : Option Nat) (v : Word)
    (size : Size) : MemRes Unit :=
  let drawn := { s with freeDraws := s.freeDraws + 1 }
  match pa with
  | none => .ok () drawn
  | some pa =>
    if Config.noFaultStore s.freeDraws && locationKind s asi va pa == .realMemory then
      .ok () (storeAt drawn va pa v size)
    else .ok () drawn

/-- A peremptory error on a write: raised, or behind the MMU recorded, and with NF = 1 suppressed
(60_exceptions.md R721; 21_reference_mmu.md R182, R192). -/
def writeError (s : State) (kind : AccessKind) (asi : BitVec 8) (va : Word) (v : Word) (size : Size)
    (mmu : Bool) : MemRes Unit :=
  if mmu then
    let s := busError s asi va true
    if faultSuppressed s asi then suppressedWrite s asi va none v size
    else .fault (accessError kind) s
  else .fault (accessError kind) s

/-- Write a physical address (20_memory.md R119); a store to read-only memory changes nothing, or raises the
access exception, as the implementation has it (log 41). DESIGN CHOICE: an access exception that memory reports
is raised whatever NF is and reaches no fault register (log 22). -/
def physicalWrite (s : State) (kind : AccessKind) (asi : BitVec 8) (va : Word) (pa : Nat) (v : Word)
    (size : Size) (mmu : Bool) : MemRes Unit :=
  if errorPresented s kind then writeError s kind asi va v size mmu
  else if exceptionPresented s kind then .fault (accessException kind) s
  else
    match locationKind s asi va pa with
    | .realMemory => .ok () (storeAt s va pa v size)
    | .rom => if s.cfg.romStoreTraps then .fault (accessException kind) s else .ok () s
    | .io => ioWrite s asi pa size v
    | .unmapped => .fault (accessException kind) s

/-- The write of a device's address space. -/
def deviceWrite (s : State) (kind : AccessKind) (asi : BitVec 8) (va : Word) (v : Word) (size : Size) :
    MemRes Unit :=
  match presented s kind with
  | some t => .fault t s
  | none => ioWrite s asi va.toNat size v

/-- The write of a routed access: the low bytes of a word. A cache-flush space takes word stores, which the
architecture cannot see (21_reference_mmu.md R222). DESIGN CHOICE: of an access to the MMU or to a cache the
environment can present no error and no exception (log 26). -/
def writeAt (s : State) (kind : AccessKind) (r : Route) (va : Word) (v : Word) (size : Size) :
    MemRes Unit :=
  match r with
  | .memory asi pa mmu => physicalWrite s kind asi va pa v size mmu
  | .suppressed asi pa => suppressedWrite s asi va pa v size
  | .device asi => deviceWrite s kind asi va v size
  | .flushProbe => if size = .word then .ok () (mmuFlush s va) else .fault (accessException kind) s
  | .mmuRegister =>
    if size = .word then
      match mmuRegisterWrite s va v with
      | some s => .ok () s
      | none => .fault (accessException kind) s
    else .fault (accessException kind) s
  | .cacheFlush => if size = .word then .ok () s else .fault (accessException kind) s

/-- Every memory_write carries out a pending STBAR, whatever becomes of it (20_memory.md R135). -/
def clearBarrier (s : State) : State := { s with storeBarrierPending := false }

/-- Where a memory_write goes. -/
def writeRoute (s : State) (kind : AccessKind) (asi : BitVec 8) (va : Word) : MemRes Route :=
  route (clearBarrier s) kind asi va true

/-- memory_write (20_memory.md R103, R104). -/
def memWrite (s : State) (kind : AccessKind) (asi : BitVec 8) (va : Word) (v : Word) (size : Size) :
    MemRes Unit :=
  (writeRoute s kind asi va).andThen fun r s => writeAt s kind r va v size

/-! ### Fetching -/

/-- The word a fetch delivers: memory's, or with IBUF_MODEL = stale_allowed any value the word may
still have in the instruction buffer (20_memory.md R141; log 27). -/
def fetchedWord (s : State) (pa : Nat) (w : Word) : Word × State :=
  if s.cfg.ibufStale then
    let values := w :: (s.staleWords.filter (fun x => x.pa == pa)).map StaleWord.old
    (values.getD (Config.staleDraw s.freeDraws % values.length) w,
      { s with freeDraws := s.freeDraws + 1 })
  else (w, s)

/-- The physical address a fetch at PC goes to, if it does not fault. -/
def fetchPa (s : State) : Option Nat :=
  match route s .fetch (fetchAsi s) s.pc false with
  | .ok (.memory _ pa _) _ => some pa
  | _ => none

/-- The instruction fetch at PC (20_memory.md R114). DESIGN CHOICE: the instruction buffer never holds or
prefetches an I/O location, and each fetch from one is performed at the device; R140 lets the buffer hold any
location ever loaded or prefetched (log 27). -/
def fetch (s : State) : MemRes Word :=
  (route s .fetch (fetchAsi s) s.pc false).andThen fun r s =>
    (readAt s .fetch r s.pc .word).andThen fun w s =>
      match r with
      | .memory asi pa _ =>
        if locationKind s asi s.pc pa = .io then .ok w s
        else
          let p := fetchedWord s pa w
          .ok p.1 p.2
      | _ => .ok w s

end Sys2Proof.Machine
end

