-- ==== Sys2Proof/Machine/Flags.lean ====
section
/-! DEFINITION. Every computation of the integer condition codes (41_integer_alu.md R401 to R403,
R435, R445, R450, R457, R463) and every condition that tests them, the floating-point condition codes or
the coprocessor's (42_control_transfer.md R511, R516, R521). -/

namespace Sys2Proof.Machine

/-- icc of a logical instruction (41_integer_alu.md R401). -/
def iccLogic (result : Word) : Icc := ⟨result.msb, result == 0#32, false, false⟩

/-- Overflow of an addition (41_integer_alu.md R402). -/
def addOverflow (a b result : Word) : Bool :=
  (a.msb && b.msb && !result.msb) || (!a.msb && !b.msb && result.msb)

/-- Carry of an addition (41_integer_alu.md R402). -/
def addCarry (a b result : Word) : Bool :=
  (a.msb && b.msb) || (!result.msb && (a.msb || b.msb))

/-- icc of an addition (41_integer_alu.md R402). -/
def iccAdd (a b result : Word) : Icc :=
  ⟨result.msb, result == 0#32, addOverflow a b result, addCarry a b result⟩

/-- Overflow of a subtraction (41_integer_alu.md R403). -/
def subOverflow (a b result : Word) : Bool :=
  (a.msb && !b.msb && !result.msb) || (!a.msb && b.msb && result.msb)

/-- Borrow of a subtraction (41_integer_alu.md R403). -/
def subBorrow (a b result : Word) : Bool :=
  (!a.msb && b.msb) || (result.msb && (!a.msb || b.msb))

/-- icc of a subtraction (41_integer_alu.md R403). -/
def iccSub (a b result : Word) : Icc :=
  ⟨result.msb, result == 0#32, subOverflow a b result, subBorrow a b result⟩

/-- A nonzero tag in bits 1:0 of either operand (41_integer_alu.md R435). -/
def tagged (a b : Word) : Bool := a.extractLsb' 0 2 != 0#2 || b.extractLsb' 0 2 != 0#2

/-- icc of a tagged addition (41_integer_alu.md R435). -/
def iccTaggedAdd (a b result : Word) : Icc :=
  { iccAdd a b result with v := addOverflow a b result || tagged a b }

/-- icc of a tagged subtraction (41_integer_alu.md R445). -/
def iccTaggedSub (a b result : Word) : Icc :=
  { iccSub a b result with v := subOverflow a b result || tagged a b }

/-- icc of a divide: N and Z of the result, V the overflow (41_integer_alu.md R463). -/
def iccDivide (result : Word) (overflow : Bool) : Icc := ⟨result.msb, result == 0#32, overflow, false⟩

/-- The sixteen tests of icc, by cond; cond<3> inverts the test of cond<2:0> (42_control_transfer.md
R511, R546). -/
def iccTest (c : Icc) (cond : BitVec 4) : Bool :=
  let base :=
    match (cond.extractLsb' 0 3).toNat with
    | 0 => false
    | 1 => c.z
    | 2 => c.z || (c.n ^^ c.v)
    | 3 => c.n ^^ c.v
    | 4 => c.c || c.z
    | 5 => c.c
    | 6 => c.n
    | _ => c.v
  base ^^ cond.getLsbD 3

/-- The sixteen tests of fcc, by cond: E, L, G, U are fcc = 0, 1, 2, 3 (42_control_transfer.md R516). -/
def fccTest (fcc : BitVec 2) (cond : BitVec 4) : Bool :=
  let e := fcc == 0#2
  let l := fcc == 1#2
  let g := fcc == 2#2
  let u := fcc == 3#2
  match cond.toNat with
  | 0x0 => false
  | 0x1 => l || g || u
  | 0x2 => l || g
  | 0x3 => l || u
  | 0x4 => l
  | 0x5 => g || u
  | 0x6 => g
  | 0x7 => u
  | 0x8 => true
  | 0x9 => e
  | 0xA => e || u
  | 0xB => e || g
  | 0xC => e || g || u
  | 0xD => e || l
  | 0xE => e || l || u
  | _ => e || l || g

/-- The sixteen tests of the coprocessor's condition codes, by cond (42_control_transfer.md R521). -/
def cpTest (cc : BitVec 2) (cond : BitVec 4) : Bool :=
  match cond.toNat with
  | 0x0 => false
  | 0x1 => cc == 1#2 || cc == 2#2 || cc == 3#2
  | 0x2 => cc == 1#2 || cc == 2#2
  | 0x3 => cc == 1#2 || cc == 3#2
  | 0x4 => cc == 1#2
  | 0x5 => cc == 2#2 || cc == 3#2
  | 0x6 => cc == 2#2
  | 0x7 => cc == 3#2
  | 0x8 => true
  | 0x9 => cc == 0#2
  | 0xA => cc == 0#2 || cc == 3#2
  | 0xB => cc == 0#2 || cc == 2#2
  | 0xC => cc == 0#2 || cc == 2#2 || cc == 3#2
  | 0xD => cc == 0#2 || cc == 1#2
  | 0xE => cc == 0#2 || cc == 1#2 || cc == 3#2
  | _ => cc == 0#2 || cc == 1#2 || cc == 2#2

end Sys2Proof.Machine
end

