-- ==== Sys2Proof/Machine/LoadStore.lean ====
section
/-! DEFINITION. The integer loads and stores, their alternate-space forms, LDSTUB and SWAP
(40_load_store.md R300 to R332, R345 to R353, R370 to R376). -/

namespace Sys2Proof.Machine

/-! ### Shared steps -/

/-- The checks of an alternate-space instruction before its access: privileged_instruction in user mode,
then illegal_instruction for i = 1; else its asi and address (40_load_store.md R300, R302). -/
def alternate (s : State) (rs1 : RegNum) (o : AltOperand) (k : BitVec 8 → Word → Res) : Res :=
  privileged s
    (match o with
    | .imm _ => .trap .illegalInstruction s
    | .reg asi rs2 => k asi (reg s rs1 + reg s rs2))

/-- Raise illegal_instruction for an odd rd of a doubleword instruction, if the implementation does
(40_load_store.md R331). -/
def evenRd (s : State) (rd : RegNum) (k : Res) : Res :=
  if s.cfg.oddRdLddTraps && rd.getLsbD 0 then .trap .illegalInstruction s else k

/-- Load one datum into r[rd] (40_load_store.md R310 to R314). -/
def loadInt (s : State) (asi : BitVec 8) (address : Word) (size : Size) (extend : Word → Word)
    (rd : RegNum) : Res :=
  aligned s address size
    ((memRead s .first asi address size).bind fun v s => .done (advance (setReg s rd (extend v))))

/-- Load a doubleword into the pair of rd: one translation for both words; if the second access faults the
even register has been written (40_load_store.md R330, 20_memory.md R113). -/
def loadPair (s : State) (asi : BitVec 8) (address : Word) (rd : RegNum) : Res :=
  aligned s address .dword
    ((route s .first asi address false).bind fun r s =>
      (readAt s .first r address .dword).bind fun v s =>
        let s := setReg s (evenReg rd) v
        (readAt s .second r.next (address + 4#32) .dword).bind fun v s =>
          .done (advance (setReg s (oddReg rd) v)))

/-- Store the low bytes of a word (40_load_store.md R345 to R348). -/
def storeInt (s : State) (asi : BitVec 8) (address : Word) (size : Size) (v : Word) : Res :=
  aligned s address size ((memWrite s .first asi address v size).bind fun _ s => .done (advance s))

/-- The two accesses of a doubleword store, by one translation, the second only if the first did not fault,
then the rest of the instruction (20_memory.md R113, 40_load_store.md R349). -/
def storeTwo (s : State) (asi : BitVec 8) (address v0 v1 : Word) (k : State → Res) : Res :=
  (writeRoute s .first asi address).bind fun r s =>
    (writeAt s .first r address v0 .dword).bind fun _ s =>
      (writeAt s .second r.next (address + 4#32) v1 .dword).bind fun _ s => k s

/-- Store the pair of rd (40_load_store.md R349). -/
def storePair (s : State) (asi : BitVec 8) (address : Word) (rd : RegNum) : Res :=
  aligned s address .dword
    (storeTwo s asi address (reg s (evenReg rd)) (reg s (oddReg rd)) fun s => .done (advance s))

/-- The read and write halves of an atomic load-store; r[rd] is written only after both (40_load_store.md R370,
R375). While another holder blocks the memory the instruction waits: it changes nothing, and the next step tries
again; DESIGN CHOICE: each try is an instruction to the counts of the cycle (log 38). DESIGN CHOICE: in ASI 3 or
4 the read of SWAPA is a probe or a register read, its write a flush or a register write (log 21). -/
def atomic (s : State) (asi : BitVec 8) (address : Word) (size : Size) (v : Word) (rd : RegNum) : Res :=
  aligned s address size
    (if s.blockByte || s.blockWord then .done s
    else
      (memRead s .first asi address size).bind fun old s =>
        (memWrite s .second asi address v size).bind fun _ s => .done (advance (setReg s rd old)))

/-- Sign-extend the byte of an access (40_load_store.md R310). -/
def signByte (v : Word) : Word := (v.extractLsb' 0 8).signExtend 32

/-- Sign-extend the halfword of an access (40_load_store.md R311). -/
def signHalf (v : Word) : Word := (v.extractLsb' 0 16).signExtend 32

/-! ### Loads -/

/-- LDSB (40_load_store.md R310). -/
def execLdsb (rd rs1 : RegNum) (o : Operand2) (s : State) : Host.Outcome State Fault Refusal :=
  (loadInt s (dataAsi s) (effectiveAddress s rs1 o) .byte signByte rd).out

/-- LDSH (40_load_store.md R311). -/
def execLdsh (rd rs1 : RegNum) (o : Operand2) (s : State) : Host.Outcome State Fault Refusal :=
  (loadInt s (dataAsi s) (effectiveAddress s rs1 o) .half signHalf rd).out

/-- LDUB (40_load_store.md R312). -/
def execLdub (rd rs1 : RegNum) (o : Operand2) (s : State) : Host.Outcome State Fault Refusal :=
  (loadInt s (dataAsi s) (effectiveAddress s rs1 o) .byte id rd).out

/-- LDUH (40_load_store.md R313). -/
def execLduh (rd rs1 : RegNum) (o : Operand2) (s : State) : Host.Outcome State Fault Refusal :=
  (loadInt s (dataAsi s) (effectiveAddress s rs1 o) .half id rd).out

/-- LD (40_load_store.md R314). -/
def execLd (rd rs1 : RegNum) (o : Operand2) (s : State) : Host.Outcome State Fault Refusal :=
  (loadInt s (dataAsi s) (effectiveAddress s rs1 o) .word id rd).out

/-- LDD (40_load_store.md R330, R331). -/
def execLdd (rd rs1 : RegNum) (o : Operand2) (s : State) : Host.Outcome State Fault Refusal :=
  (evenRd s rd (loadPair s (dataAsi s) (effectiveAddress s rs1 o) rd)).out

/-- LDSBA (40_load_store.md R320). -/
def execLdsba (rd rs1 : RegNum) (o : AltOperand) (s : State) : Host.Outcome State Fault Refusal :=
  (alternate s rs1 o fun asi address => loadInt s asi address .byte signByte rd).out

/-- LDSHA (40_load_store.md R321). -/
def execLdsha (rd rs1 : RegNum) (o : AltOperand) (s : State) : Host.Outcome State Fault Refusal :=
  (alternate s rs1 o fun asi address => loadInt s asi address .half signHalf rd).out

/-- LDUBA (40_load_store.md R322). -/
def execLduba (rd rs1 : RegNum) (o : AltOperand) (s : State) : Host.Outcome State Fault Refusal :=
  (alternate s rs1 o fun asi address => loadInt s asi address .byte id rd).out

/-- LDUHA (40_load_store.md R323). -/
def execLduha (rd rs1 : RegNum) (o : AltOperand) (s : State) : Host.Outcome State Fault Refusal :=
  (alternate s rs1 o fun asi address => loadInt s asi address .half id rd).out

/-- LDA (40_load_store.md R324). -/
def execLda (rd rs1 : RegNum) (o : AltOperand) (s : State) : Host.Outcome State Fault Refusal :=
  (alternate s rs1 o fun asi address => loadInt s asi address .word id rd).out

/-- LDDA (40_load_store.md R332). -/
def execLdda (rd rs1 : RegNum) (o : AltOperand) (s : State) : Host.Outcome State Fault Refusal :=
  (alternate s rs1 o fun asi address => evenRd s rd (loadPair s asi address rd)).out

/-! ### Stores -/

/-- STB (40_load_store.md R346). -/
def execStb (rd rs1 : RegNum) (o : Operand2) (s : State) : Host.Outcome State Fault Refusal :=
  (storeInt s (dataAsi s) (effectiveAddress s rs1 o) .byte (reg s rd)).out

/-- STH (40_load_store.md R347). -/
def execSth (rd rs1 : RegNum) (o : Operand2) (s : State) : Host.Outcome State Fault Refusal :=
  (storeInt s (dataAsi s) (effectiveAddress s rs1 o) .half (reg s rd)).out

/-- ST (40_load_store.md R348). -/
def execSt (rd rs1 : RegNum) (o : Operand2) (s : State) : Host.Outcome State Fault Refusal :=
  (storeInt s (dataAsi s) (effectiveAddress s rs1 o) .word (reg s rd)).out

/-- STD (40_load_store.md R349). -/
def execStd (rd rs1 : RegNum) (o : Operand2) (s : State) : Host.Outcome State Fault Refusal :=
  (evenRd s rd (storePair s (dataAsi s) (effectiveAddress s rs1 o) rd)).out

/-- STBA (40_load_store.md R350). -/
def execStba (rd rs1 : RegNum) (o : AltOperand) (s : State) : Host.Outcome State Fault Refusal :=
  (alternate s rs1 o fun asi address => storeInt s asi address .byte (reg s rd)).out

/-- STHA (40_load_store.md R351). -/
def execStha (rd rs1 : RegNum) (o : AltOperand) (s : State) : Host.Outcome State Fault Refusal :=
  (alternate s rs1 o fun asi address => storeInt s asi address .half (reg s rd)).out

/-- STA (40_load_store.md R352). -/
def execSta (rd rs1 : RegNum) (o : AltOperand) (s : State) : Host.Outcome State Fault Refusal :=
  (alternate s rs1 o fun asi address => storeInt s asi address .word (reg s rd)).out

/-- STDA (40_load_store.md R353). -/
def execStda (rd rs1 : RegNum) (o : AltOperand) (s : State) : Host.Outcome State Fault Refusal :=
  (alternate s rs1 o fun asi address => evenRd s rd (storePair s asi address rd)).out

/-! ### Atomic load-stores -/

/-- LDSTUB (40_load_store.md R370). -/
def execLdstub (rd rs1 : RegNum) (o : Operand2) (s : State) : Host.Outcome State Fault Refusal :=
  (atomic s (dataAsi s) (effectiveAddress s rs1 o) .byte 0xFFFFFFFF#32 rd).out

/-- LDSTUBA (40_load_store.md R371). -/
def execLdstuba (rd rs1 : RegNum) (o : AltOperand) (s : State) : Host.Outcome State Fault Refusal :=
  (alternate s rs1 o fun asi address => atomic s asi address .byte 0xFFFFFFFF#32 rd).out

/-- SWAP (40_load_store.md R375); the alignment test is R303's. -/
def execSwap (rd rs1 : RegNum) (o : Operand2) (s : State) : Host.Outcome State Fault Refusal :=
  (atomic s (dataAsi s) (effectiveAddress s rs1 o) .word (reg s rd) rd).out

/-- SWAPA (40_load_store.md R376). -/
def execSwapa (rd rs1 : RegNum) (o : AltOperand) (s : State) : Host.Outcome State Fault Refusal :=
  (alternate s rs1 o fun asi address => atomic s asi address .word (reg s rd) rd).out

end Sys2Proof.Machine
end

