-- ==== Sys2Proof/Machine/Cp.lean ====
section
/-! DEFINITION. The coprocessor's loads and stores (40_load_store.md R340 to R342, R360 to R363) and
CPop1, CPop2 (45_cpop.md R680, R681). With no coprocessor they raise cp_disabled; with one, what it
does is the free CP_MODEL (45_cpop.md R682; log 16). CBccc is in Branch.lean. -/

namespace Sys2Proof.Machine

/-- The coprocessor's state after a request; CPop1 does not affect its condition codes, whether it completes or
raises an exception, at once or deferred (45_cpop.md R680). -/
def cpAfter (request : CpRequest) (c : CpState) : CpState :=
  match request with
  | .op1 _ _ _ _ _ => { Config.cpNext request c with cc := c.cc }
  | .defer .op1 => { Config.cpNext request c with cc := c.cc }
  | _ => Config.cpNext request c

/-- The coprocessor carries out a request. -/
def cpDoes (s : State) (request : CpRequest) : State := { s with cp := cpAfter request s.cp }

/-- Any coprocessor instruction invokes an outstanding exception of the coprocessor (60_exceptions.md R720,
R702). DESIGN CHOICE: error_mode or an ordinary trap goes by the ET of this instruction (R707; log 16). -/
def cpProvokes (s : State) (k : Res) : Res := if s.cpPending then .trap .cpException s else k

/-- An outstanding exception comes first. Raise cp_exception if the coprocessor answers this request with one,
else go on (60_exceptions.md R720): when it does is the coprocessor's own matter, so an input of the step says
it (log 16); what it records of the exception is in its own state. For a load the words of the request are zero:
the check precedes the access (40_load_store.md R301). -/
def cpAccepted (s : State) (request : CpRequest) (k : Res) : Res :=
  cpProvokes s (if s.now.cpException then .trap .cpException (cpDoes s request) else k)

/-- LDC (40_load_store.md R340). -/
def execLdc (rd rs1 : RegNum) (o : Operand2) (s : State) : Host.Outcome State Fault Refusal :=
  let address := effectiveAddress s rs1 o
  (cpEnabled s (aligned s address .word (cpAccepted s (.load rd 0#32)
    ((memRead s .first (dataAsi s) address .word).bind fun v s =>
      .done (advance (cpDoes s (.load rd v))))))).out

/-- LDDC; if the second access faults the even register may have changed (40_load_store.md R341). -/
def execLddc (rd rs1 : RegNum) (o : Operand2) (s : State) : Host.Outcome State Fault Refusal :=
  let address := effectiveAddress s rs1 o
  (cpEnabled s (aligned s address .dword (cpAccepted s (.loadDouble rd 0#32 0#32)
    ((route s .first (dataAsi s) address false).bind fun r s =>
      (readAt s .first r address .dword).bind fun v0 s =>
        match readAt s .second r.next (address + 4#32) .dword with
        | .ok v1 s => .done (advance (cpDoes s (.loadDouble rd v0 v1)))
        | .fault t s => .trap t (cpDoes s (.loadFirst rd v0)))))).out

/-- LDCSR: CSR <- the word (40_load_store.md R342). -/
def execLdcsr (rs1 : RegNum) (o : Operand2) (s : State) : Host.Outcome State Fault Refusal :=
  let address := effectiveAddress s rs1 o
  (cpEnabled s (aligned s address .word (cpAccepted s (.loadCsr 0#32)
    ((memRead s .first (dataAsi s) address .word).bind fun v s =>
      let s := cpDoes s (.loadCsr v)
      .done (advance { s with cp := { s.cp with csr := v } }))))).out

/-- STC: the word is the coprocessor's (40_load_store.md R360). -/
def execStc (rd rs1 : RegNum) (o : Operand2) (s : State) : Host.Outcome State Fault Refusal :=
  let address := effectiveAddress s rs1 o
  (cpEnabled s (aligned s address .word (cpAccepted s (.store rd)
    ((memWrite s .first (dataAsi s) address (Config.cpData (.store rd) s.cp).1 .word).bind fun _ s =>
      .done (advance (cpDoes s (.store rd))))))).out

/-- STDC: the two words are the coprocessor's (40_load_store.md R361). -/
def execStdc (rd rs1 : RegNum) (o : Operand2) (s : State) : Host.Outcome State Fault Refusal :=
  let address := effectiveAddress s rs1 o
  let data := Config.cpData (.storeDouble rd) s.cp
  (cpEnabled s (aligned s address .dword (cpAccepted s (.storeDouble rd)
    (storeTwo s (dataAsi s) address data.1 data.2 fun s =>
      .done (advance (cpDoes s (.storeDouble rd))))))).out

/-- STCSR: the CSR is stored after implementation-dependent actions (40_load_store.md R362). -/
def execStcsr (rs1 : RegNum) (o : Operand2) (s : State) : Host.Outcome State Fault Refusal :=
  let address := effectiveAddress s rs1 o
  (cpEnabled s (aligned s address .word (cpAccepted s .storeCsr
    (let cp := cpAfter .storeCsr s.cp
    (memWrite s .first (dataAsi s) address cp.csr .word).bind fun _ s =>
      .done (advance { s with cp := cp }))))).out

/-- STDCQ: without a coprocessor queue, or with an empty one, cp_exception; else the front entry is
stored and leaves the queue (40_load_store.md R363; log 16). -/
def execStdcq (rs1 : RegNum) (o : Operand2) (s : State) : Host.Outcome State Fault Refusal :=
  let address := effectiveAddress s rs1 o
  (privileged s (cpEnabled s (aligned s address .dword
    (cpProvokes s (match s.cfg.cqPresent, s.cp.cq with
    | true, e :: rest =>
      cpAccepted s .storeQueue
        (storeTwo s (dataAsi s) address e.1 e.2 fun s =>
          let s := cpDoes s .storeQueue
          .done (advance { s with cp := { s.cp with cq := rest } }))
    | _, _ => .trap .cpException s))))).out

/-- CPop1: it may change only the coprocessor, and not its condition codes (45_cpop.md R680). -/
def execCpop1 (rd rs1 : RegNum) (opc : BitVec 9) (rs2 : RegNum) (s : State) :
    Host.Outcome State Fault Refusal :=
  (cpEnabled s (cpAccepted s (.op1 s.pc rd rs1 opc rs2)
    (.done (advance (cpDoes s (.op1 s.pc rd rs1 opc rs2)))))).out

/-- CPop2: it may change the coprocessor, its condition codes among it (45_cpop.md R681). -/
def execCpop2 (rd rs1 : RegNum) (opc : BitVec 9) (rs2 : RegNum) (s : State) :
    Host.Outcome State Fault Refusal :=
  (cpEnabled s (cpAccepted s (.op2 s.pc rd rs1 opc rs2)
    (.done (advance (cpDoes s (.op2 s.pc rd rs1 opc rs2)))))).out

end Sys2Proof.Machine
end

