-- ==== Sys2Proof/Machine/Float.lean ====
section
/-! DEFINITION. ANSI/IEEE 754-1985 arithmetic on the three SPARC formats (44_fpop.md R600, R605, R607;
10_state.md R51, R56, R67), on natural numbers: operands are taken apart exactly, the exact result is
computed, and rounding happens once. The default results of the standard are log 29. -/

namespace Sys2Proof.Machine

/-- Width of the exponent field. -/
def FpFormat.expBits : FpFormat → Nat
  | .single => 8
  | .double => 11
  | .quad => 15

/-- Width of the fraction field. -/
def FpFormat.fracBits : FpFormat → Nat
  | .single => 23
  | .double => 52
  | .quad => 112

/-- The exponent field of infinities and NaNs: all ones. -/
def FpFormat.maxExp (f : FpFormat) : Nat := 2 ^ f.expBits - 1

/-- The exponent of the least significant bit of a subnormal number. -/
def FpFormat.minQuantum (f : FpFormat) : Int :=
  2 - (2 ^ (f.expBits - 1) : Int) - (f.fracBits : Int)

/-- The weight of the sign bit. -/
def FpFormat.signBit (f : FpFormat) : Nat := 2 ^ (f.expBits + f.fracBits)

/-- What the bits of an operand stand for: a NaN with its bits, an infinity, or the number
±mant * 2^exp. -/
inductive FpValue where
  | nan (signaling : Bool) (bits : Nat)
  | inf (sign : Bool)
  | num (sign : Bool) (mant : Nat) (exp : Int)
  deriving DecidableEq, Repr

/-- The operand of some bits. -/
def fpUnpack (f : FpFormat) (bits : Nat) : FpValue :=
  let sign := bits / f.signBit % 2 == 1
  let e := bits / 2 ^ f.fracBits % 2 ^ f.expBits
  let frac := bits % 2 ^ f.fracBits
  if e = f.maxExp then
    if frac = 0 then .inf sign else .nan (frac / 2 ^ (f.fracBits - 1) == 0) bits
  else if e = 0 then .num sign frac f.minQuantum
  else .num sign (frac + 2 ^ f.fracBits) (f.minQuantum + (e - 1 : Nat))

/-- The raised exceptions, in the order of texc: nv, of, uf, dz, nx (44_fpop.md R604). -/
structure FpFlags where
  nv : Bool := false
  of : Bool := false
  uf : Bool := false
  dz : Bool := false
  nx : Bool := false
  deriving DecidableEq, Repr

/-- texc as five bits (44_fpop.md R604). -/
def FpFlags.bits (x : FpFlags) : BitVec 5 :=
  (BitVec.ofBool x.nv ++ BitVec.ofBool x.of ++ BitVec.ofBool x.uf ++ BitVec.ofBool x.dz
    ++ BitVec.ofBool x.nx : BitVec (1 + 1 + 1 + 1 + 1))

/-- What an operation delivers: the bits of the result and the raised exceptions. -/
structure FpResult where
  bits : Nat
  flags : FpFlags
  deriving DecidableEq, Repr

/-- How results are rounded (10_state.md R56) and whether underflow traps (R67). -/
structure Rounding where
  rd : BitVec 2
  ufm : Bool
  deriving DecidableEq, Repr

/-- The bits of a number of this sign and magnitude. -/
def fpSigned (f : FpFormat) (sign : Bool) (mag : Nat) : Nat :=
  if sign then f.signBit + mag else mag

/-- Infinity. -/
def fpInf (f : FpFormat) (sign : Bool) : Nat := fpSigned f sign (f.maxExp * 2 ^ f.fracBits)

/-- The quiet NaN of an invalid operation without a NaN operand: sign 0, all ones (44_fpop.md R607). -/
def fpDefaultNan (f : FpFormat) : Nat := f.signBit - 1

/-- Does the result of an overflow go to infinity (10_state.md R56; log 29). -/
def overflowsToInf (rd : BitVec 2) (sign : Bool) : Bool :=
  match rd.toNat with
  | 0 => true
  | 1 => false
  | 2 => !sign
  | _ => sign

/-- Is a magnitude rounded up, given its last kept bit and what is cut off (10_state.md R56): `rem` of
`2 ^ shift`, more if `sticky`. -/
def roundsUp (rd : BitVec 2) (sign odd : Bool) (rem shift : Nat) (sticky : Bool) : Bool :=
  match rd.toNat with
  | 0 =>
    decide (2 ^ shift < 2 * rem) || (decide (2 * rem = 2 ^ shift) && (sticky || odd))
  | 1 => false
  | 2 => !sign && (decide (0 < rem) || sticky)
  | _ => sign && (decide (0 < rem) || sticky)

/-- Round ±(mant * 2^exp), or a little more in magnitude if `sticky`, to a format (10_state.md R56, R67;
44_fpop.md R605). A sticky operand has at least two bits more than the format keeps. -/
def fpRound (f : FpFormat) (r : Rounding) (sign : Bool) (mant : Nat) (exp : Int) (sticky : Bool) :
    FpResult :=
  if mant = 0 then ⟨fpSigned f sign 0, {}⟩
  else
    let top : Int := exp + (Nat.log2 mant : Nat)
    let quantum : Int := max (top - (f.fracBits : Int)) f.minQuantum
    let tiny := decide (top < f.minQuantum + (f.fracBits : Int))
    let shift := (quantum - exp).toNat
    let scaled := mant * 2 ^ (exp - quantum).toNat
    let kept := scaled / 2 ^ shift
    let rem := scaled % 2 ^ shift
    let inexact := decide (0 < rem) || sticky
    let kept := if roundsUp r.rd sign (kept % 2 == 1) rem shift sticky then kept + 1 else kept
    let mag := (quantum - f.minQuantum).toNat * 2 ^ f.fracBits + kept
    if f.maxExp * 2 ^ f.fracBits ≤ mag then
      let mag :=
        if overflowsToInf r.rd sign then f.maxExp * 2 ^ f.fracBits
        else f.maxExp * 2 ^ f.fracBits - 1
      ⟨fpSigned f sign mag, { of := true, nx := true }⟩
    else ⟨fpSigned f sign mag, { uf := tiny && (inexact || r.ufm), nx := inexact }⟩

/-- The quiet form of a NaN: its quiet bit set (44_fpop.md R607). -/
def fpQuiet (f : FpFormat) (bits : Nat) : Nat := bits ||| 2 ^ (f.fracBits - 1)

/-- The NaN of another format that a NaN is transformed to: the sign, the most significant fraction
bits, the quiet bit set (44_fpop.md R607). -/
def fpTransformNan (f g : FpFormat) (bits : Nat) : Nat :=
  let sign := bits / f.signBit % 2 == 1
  let frac := bits % 2 ^ f.fracBits
  let frac :=
    if f.fracBits ≤ g.fracBits then frac * 2 ^ (g.fracBits - f.fracBits)
    else frac / 2 ^ (f.fracBits - g.fracBits)
  fpQuiet g (fpSigned g sign (g.maxExp * 2 ^ g.fracBits + frac))

/-- The NaN result of an operation with at least one NaN operand, in the operands' format, made quiet, and
whether nv is raised (44_fpop.md R607's table). -/
def fpNanResult (f : FpFormat) : FpValue → FpValue → Option (Nat × Bool)
  | .nan s1 b1, .nan s2 b2 =>
    if s2 then some (fpQuiet f b2, true)
    else if s1 then some (fpQuiet f b1, true)
    else some (b2, false)
  | .nan s1 b1, _ => some (fpQuiet f b1, s1)
  | _, .nan s2 b2 => some (fpQuiet f b2, s2)
  | _, _ => none

/-- An invalid operation. -/
def fpInvalid (f : FpFormat) : FpResult := ⟨fpDefaultNan f, { nv := true }⟩

/-- A NaN result. -/
def fpNan (x : Nat × Bool) : FpResult := ⟨x.1, { nv := x.2 }⟩

/-- Change the sign of an operand that is not a NaN. -/
def FpValue.negate : FpValue → FpValue
  | .nan s b => .nan s b
  | .inf s => .inf (!s)
  | .num s m e => .num (!s) m e

/-- The signed integer mant * 2^(exp - at), for at ≤ exp. -/
def fpAligned (sign : Bool) (mant : Nat) (exp base : Int) : Int :=
  let n : Int := ((mant * 2 ^ (exp - base).toNat : Nat) : Int)
  if sign then -n else n

/-- The sum of two operands that are not NaNs (44_fpop.md R645 to R650; a zero sum of opposite signs is
-0 only toward minus infinity, log 29). -/
def fpSum (f : FpFormat) (r : Rounding) : FpValue → FpValue → FpResult
  | .inf s1, .inf s2 => if s1 = s2 then ⟨fpInf f s1, {}⟩ else fpInvalid f
  | .inf s1, _ => ⟨fpInf f s1, {}⟩
  | _, .inf s2 => ⟨fpInf f s2, {}⟩
  | .num s1 m1 e1, .num s2 m2 e2 =>
    let base := min e1 e2
    let total := fpAligned s1 m1 e1 base + fpAligned s2 m2 e2 base
    if total = 0 then ⟨fpSigned f (if s1 = s2 then s1 else r.rd == 3#2) 0, {}⟩
    else fpRound f r (decide (total < 0)) total.natAbs base false
  | _, _ => fpInvalid f

/-- a + b (44_fpop.md R645 to R647). -/
def fpAdd (f : FpFormat) (r : Rounding) (a b : Nat) : FpResult :=
  match fpNanResult f (fpUnpack f a) (fpUnpack f b) with
  | some x => fpNan x
  | none => fpSum f r (fpUnpack f a) (fpUnpack f b)

/-- a - b (44_fpop.md R648 to R650). -/
def fpSub (f : FpFormat) (r : Rounding) (a b : Nat) : FpResult :=
  match fpNanResult f (fpUnpack f a) (fpUnpack f b) with
  | some x => fpNan x
  | none => fpSum f r (fpUnpack f a) (fpUnpack f b).negate

/-- The product, in format g, of two operands of format f that are not NaNs (44_fpop.md R655 to R659). -/
def fpProduct (g : FpFormat) (r : Rounding) : FpValue → FpValue → FpResult
  | .inf s1, .inf s2 => ⟨fpInf g (s1 ^^ s2), {}⟩
  | .inf s1, .num s2 m2 _ => if m2 = 0 then fpInvalid g else ⟨fpInf g (s1 ^^ s2), {}⟩
  | .num s1 m1 _, .inf s2 => if m1 = 0 then fpInvalid g else ⟨fpInf g (s1 ^^ s2), {}⟩
  | .num s1 m1 e1, .num s2 m2 e2 => fpRound g r (s1 ^^ s2) (m1 * m2) (e1 + e2) false
  | _, _ => fpInvalid g

/-- a * b in format g; a NaN operand of another format is transformed (44_fpop.md R607, R655 to R659). -/
def fpMul (f g : FpFormat) (r : Rounding) (a b : Nat) : FpResult :=
  match fpNanResult f (fpUnpack f a) (fpUnpack f b) with
  | some x => if f = g then fpNan x else fpNan (fpTransformNan f g x.1, x.2)
  | none => fpProduct g r (fpUnpack f a) (fpUnpack f b)

/-- The quotient of two operands that are not NaNs (44_fpop.md R660 to R662): enough bits of it to round,
and whether a remainder is left. -/
def fpQuotient (f : FpFormat) (r : Rounding) : FpValue → FpValue → FpResult
  | .inf _, .inf _ => fpInvalid f
  | .inf s1, .num s2 _ _ => ⟨fpInf f (s1 ^^ s2), {}⟩
  | .num s1 _ _, .inf s2 => ⟨fpSigned f (s1 ^^ s2) 0, {}⟩
  | .num s1 m1 e1, .num s2 m2 e2 =>
    if m2 = 0 then
      if m1 = 0 then fpInvalid f else ⟨fpInf f (s1 ^^ s2), { dz := true }⟩
    else
      let k := f.fracBits + 4 + Nat.log2 m2
      let n := m1 * 2 ^ k
      fpRound f r (s1 ^^ s2) (n / m2) (e1 - e2 - (k : Int)) (decide (n % m2 ≠ 0))
  | _, _ => fpInvalid f

/-- a / b (44_fpop.md R660 to R662). -/
def fpDiv (f : FpFormat) (r : Rounding) (a b : Nat) : FpResult :=
  match fpNanResult f (fpUnpack f a) (fpUnpack f b) with
  | some x => fpNan x
  | none => fpQuotient f r (fpUnpack f a) (fpUnpack f b)

/-- The integer square root of n, a bit at a time from bit k - 1 of the root down. -/
def isqrtFrom (n : Nat) : Nat → Nat → Nat
  | 0, root => root
  | k + 1, root =>
    let next := root + 2 ^ k
    isqrtFrom n k (if next * next ≤ n then next else root)

/-- The integer square root. -/
def isqrt (n : Nat) : Nat := isqrtFrom n (Nat.log2 n / 2 + 1) 0

/-- The square root (44_fpop.md R640 to R642); -0 has the root -0, any other negative number is
invalid. -/
def fpSqrt (f : FpFormat) (r : Rounding) (a : Nat) : FpResult :=
  match fpUnpack f a with
  | .nan s b => fpNan (fpQuiet f b, s)
  | .inf s => if s then fpInvalid f else ⟨fpInf f false, {}⟩
  | .num s m e =>
    if m = 0 then ⟨fpSigned f s 0, {}⟩
    else if s then fpInvalid f
    else
      let k := 2 * (f.fracBits + 4) + (e % 2).toNat
      let n := m * 2 ^ k
      let root := isqrt n
      fpRound f r false root ((e - (k : Int)) / 2) (decide (root * root ≠ n))

/-- A conversion between formats (44_fpop.md R625 to R630). -/
def fpConvert (f g : FpFormat) (r : Rounding) (a : Nat) : FpResult :=
  match fpUnpack f a with
  | .nan s b => ⟨fpTransformNan f g b, { nv := s }⟩
  | .inf s => ⟨fpInf g s, {}⟩
  | .num s m e => fpRound g r s m e false

/-- A conversion of a 32-bit integer (44_fpop.md R615 to R617). -/
def fpOfInt (g : FpFormat) (r : Rounding) (i : Word) : FpResult :=
  fpRound g r i.msb i.toInt.natAbs 0 false

/-- The integer a conversion that is invalid delivers (44_fpop.md section 3, N.7). -/
def fpInvalidInt (sign : Bool) : FpResult :=
  ⟨if sign then 0x80000000 else 0x7FFFFFFF, { nv := true }⟩

/-- A conversion to a 32-bit integer, toward zero (44_fpop.md R620 to R622). -/
def fpToInt (f : FpFormat) (a : Nat) : FpResult :=
  match fpUnpack f a with
  | .nan _ b => fpInvalidInt (b / f.signBit % 2 == 1)
  | .inf s => fpInvalidInt s
  | .num s m e =>
    let whole := m * 2 ^ e.toNat / 2 ^ (-e).toNat
    let exact := decide (m * 2 ^ e.toNat % 2 ^ (-e).toNat = 0)
    if (if s then 2 ^ 31 else 2 ^ 31 - 1) < whole then fpInvalidInt s
    else ⟨(BitVec.ofInt 32 (if s then -(whole : Int) else whole)).toNat, { nx := !exact }⟩

/-- The comparison of two numbers: 0 equal, 1 less, 2 greater (44_fpop.md section 9). -/
def fpOrder (a b : Int) : BitVec 2 := if a = b then 0#2 else if a < b then 1#2 else 2#2

/-- fcc of two operands, 3 if unordered (44_fpop.md R665 to R670; +0 = -0). -/
def fpCompare (f : FpFormat) (a b : Nat) : BitVec 2 :=
  match fpUnpack f a, fpUnpack f b with
  | .nan _ _, _ => 3#2
  | _, .nan _ _ => 3#2
  | .inf s1, .inf s2 => fpOrder (if s1 then -1 else 1) (if s2 then -1 else 1)
  | .inf s1, .num _ _ _ => if s1 then 1#2 else 2#2
  | .num _ _ _, .inf s2 => if s2 then 2#2 else 1#2
  | .num s1 m1 e1, .num s2 m2 e2 =>
    let base := min e1 e2
    fpOrder (fpAligned s1 m1 e1 base) (fpAligned s2 m2 e2 base)

/-- Is an operand a NaN, or a signaling one if `quietToo` is not set (44_fpop.md section 9). -/
def fpRaisesInvalid (f : FpFormat) (quietToo : Bool) (a : Nat) : Bool :=
  match fpUnpack f a with
  | .nan signaling _ => signaling || quietToo
  | _ => false

end Sys2Proof.Machine
end

