-- ==== Sys2Proof/Machine/Fpu.lean ====
section
/-! DEFINITION. The FPU at work on FPops (44_fpop.md R602 to R604): the registers an FPop names, its
result, its end with a result or an exception, and the FPops the FPU still works on when FQ_PRESENT
(10_state.md R75, R76; 60_exceptions.md R755; log 14). -/

namespace Sys2Proof.Machine

/-! ### The registers of an FPop -/

/-- Is a register number misaligned for a format (44_fpop.md R602). -/
def misaligned (f : FpFormat) (n : RegNum) : Bool :=
  match f with
  | .single => false
  | .double => n.extractLsb' 0 1 != 0#1
  | .quad => n.extractLsb' 0 2 != 0#2

/-- The f registers of an operand (10_state.md R51, 44_fpop.md R602). -/
def operandRegs (f : FpFormat) (n : RegNum) : List RegNum :=
  match f with
  | .single => [n]
  | .double => [evenReg n, oddReg n]
  | .quad => [quadReg n 0#5, quadReg n 1#5, quadReg n 2#5, quadReg n 3#5]

/-- The formats of the operands in rs1 and rs2, and of the result in rd (44_fpop.md). -/
def FpOp.formats : FpOp → Option FpFormat × Option FpFormat × Option FpFormat
  | .ofInt g => (none, some .single, some g)
  | .toInt f => (none, some f, some .single)
  | .convert f g => (none, some f, some g)
  | .move => (none, some .single, some .single)
  | .negate => (none, some .single, some .single)
  | .absolute => (none, some .single, some .single)
  | .sqrt f => (none, some f, some f)
  | .add f => (some f, some f, some f)
  | .sub f => (some f, some f, some f)
  | .mul f g => (some f, some f, some g)
  | .div f => (some f, some f, some f)
  | .compare f _ => (some f, some f, none)
  | .unassigned _ => (none, none, none)

/-- The operand of a field, if the FPop has it. -/
def operandOf (f : Option FpFormat) (n : RegNum) : List (FpFormat × RegNum) :=
  f.toList.map fun f => (f, n)

/-- What an FPop reads (44_fpop.md R602). -/
def FpWork.sources (w : FpWork) : List (FpFormat × RegNum) :=
  operandOf w.op.formats.1 w.rs1 ++ operandOf w.op.formats.2.1 w.rs2

/-- What an FPop writes (44_fpop.md R602). -/
def FpWork.results (w : FpWork) : List (FpFormat × RegNum) := operandOf w.op.formats.2.2 w.rd

/-- Does an FPop write f[n]. -/
def FpWork.writes (w : FpWork) (n : RegNum) : Bool :=
  w.results.any fun x => (operandRegs x.1 x.2).contains n

/-- Does an FPop read or write f[n]. -/
def FpWork.touches (w : FpWork) (n : RegNum) : Bool :=
  w.writes n || w.sources.any fun x => (operandRegs x.1 x.2).contains n

/-- Is an operation an FPop2 (44_fpop.md section 9). -/
def FpOp.fpop2 : FpOp → Bool
  | .compare _ _ => true
  | .unassigned fpop2 => fpop2
  | _ => false

/-- Does an FPop set fcc, if it completes. -/
def FpWork.compares (w : FpWork) : Bool := w.op.fpop2

/-! ### The result of an FPop -/

/-- The bits of an operand (10_state.md R51). -/
def fpBits (s : State) (f : FpFormat) (n : RegNum) : Nat :=
  match f with
  | .single => (freg s n).toNat
  | .double => (fregDouble s n).toNat
  | .quad => (fregQuad s n).toNat

/-- Write a result (44_fpop.md R604). -/
def setFpBits (s : State) (f : FpFormat) (n : RegNum) (bits : Nat) : State :=
  match f with
  | .single => setFreg s n (BitVec.ofNat 32 bits)
  | .double => setFregDouble s n (BitVec.ofNat 64 bits)
  | .quad => setFregQuad s n (BitVec.ofNat 128 bits)

/-- The bits of the operand of a field; 0 if the FPop has none. -/
def fpOperandBits (s : State) (f : Option FpFormat) (n : RegNum) : Nat :=
  match f with
  | none => 0
  | some f => fpBits s f n

/-- How results are rounded now. -/
def rounding (s : State) : Rounding := ⟨s.fsr.rd, s.fsr.tem.getLsbD 2⟩

/-- A comparison: fcc in place of a result; invalid for a signaling NaN, or any NaN if `quietToo`
(44_fpop.md section 9). -/
def fpCompareResult (f : FpFormat) (quietToo : Bool) (a b : Nat) : FpResult :=
  ⟨(fpCompare f a b).toNat, { nv := fpRaisesInvalid f quietToo a || fpRaisesInvalid f quietToo b }⟩

/-- What an FPop delivers on the bits `a` of rs1's operand and `b` of rs2's by the standard (44_fpop.md R615 to
R670). -/
def fpStandard (r : Rounding) (op : FpOp) (a b : Nat) : FpResult :=
  match op with
  | .ofInt g => fpOfInt g r (BitVec.ofNat 32 b)
  | .toInt f => fpToInt f b
  | .convert f g => fpConvert f g r b
  | .move => ⟨b, {}⟩
  | .negate => ⟨(BitVec.ofNat 32 b ^^^ 0x80000000#32).toNat, {}⟩
  | .absolute => ⟨(BitVec.ofNat 32 b &&& 0x7FFFFFFF#32).toNat, {}⟩
  | .sqrt f => fpSqrt f r b
  | .add f => fpAdd f r a b
  | .sub f => fpSub f r a b
  | .mul f g => fpMul f g r a b
  | .div f => fpDiv f r a b
  | .compare f quietToo => fpCompareResult f quietToo a b
  | .unassigned _ => ⟨0, {}⟩

/-- Is an operation arithmetic: every one but the moves (44_fpop.md section 5). -/
def FpOp.arithmetic : FpOp → Bool
  | .move => false
  | .negate => false
  | .absolute => false
  | .unassigned _ => false
  | _ => true

/-- Does FSR.NS make the results of this operation the implementation's (10_state.md R59; log 36). -/
def nonstandard (s : State) (op : FpOp) : Bool :=
  s.fsr.ns && s.cfg.nsBehaviour == .implementationDefined && op.arithmetic

/-- The bits of the result of an FPop, or fcc, and texc (44_fpop.md R604). -/
def fpDelivers (s : State) (w : FpWork) : Nat × BitVec 5 :=
  let a := fpOperandBits s w.op.formats.1 w.rs1
  let b := fpOperandBits s w.op.formats.2.1 w.rs2
  if nonstandard s w.op then Config.nonstandardResult w.entry.instruction a b
  else
    let r := fpStandard (rounding s) w.op a b
    (r.bits, r.flags.bits)

/-- The result reaches rd, or fcc (44_fpop.md R604). -/
def fpWrite (s : State) (w : FpWork) (bits : Nat) : State :=
  match w.op.formats.2.2 with
  | some g => setFpBits s g w.rd bits
  | none => { s with fsr := { s.fsr with fcc := BitVec.ofNat 2 bits } }

/-! ### The end of an FPop -/

/-- How an FPop ends: with its result written, or with an exception and nothing written. -/
inductive FpEnd where
  | completes (s : State)
  | raises (r : FpRecord)

/-- The most significant bit that is set (44_fpop.md R604). -/
def highestBit (x : BitVec 5) : BitVec 5 :=
  if x.getLsbD 4 then 16#5
  else if x.getLsbD 3 then 8#5
  else if x.getLsbD 2 then 4#5
  else if x.getLsbD 1 then 2#5
  else if x.getLsbD 0 then 1#5
  else 0#5

/-- complete_fp_execution (44_fpop.md R604): an enabled exception names itself in cexc; else cexc, aexc and
ftt are written with the result. -/
def fpComplete (s : State) (w : FpWork) : FpEnd :=
  let x := fpDelivers s w
  if x.2 &&& s.fsr.tem = 0#5 then
    .completes
      (fpWrite
        { s with fsr := { s.fsr with cexc := x.2, aexc := s.fsr.aexc ||| x.2, ftt := 0#3 } } w x.1)
  else .raises ⟨1#3, some (highestBit (x.2 &&& s.fsr.tem))⟩

/-- What the FPU does of its own to an operation; a move always completes (44_fpop.md section 5: c <- 1). -/
def fpuEvent (s : State) (op : FpOp) : Option FpuEvent := if op.arithmetic then s.now.fpu else none

/-- Does the FPU not implement an FPop, or is it none (44_fpop.md R603). -/
def FpWork.unimplemented (w : FpWork) : Bool :=
  !w.implemented ||
    match w.op with
    | .unassigned _ => true
    | _ => false

/-- An FPop ends: unimplemented_FPop (R603); invalid_fp_register for a misaligned operand or result, if the
implementation checks (R602); the FPU may fail to complete it or find an error of its own (R604,
10_state.md R62; log 26); else it completes or raises what it is enabled for. DESIGN CHOICE: the first of these
comes before the second (log 37). -/
def fpExecute (s : State) (w : FpWork) : FpEnd :=
  if w.unimplemented then .raises ⟨3#3, none⟩
  else if s.cfg.misalignedFregTraps && (w.sources ++ w.results).any (fun x => misaligned x.1 x.2) then
    .raises ⟨6#3, none⟩
  else
    match fpuEvent s w.op with
    | some .unfinished => .raises ⟨2#3, none⟩
    | some .hardwareError => .raises ⟨5#3, none⟩
    | none => fpComplete s w

/-! ### The FPops the FPU works on -/

/-- The FPU ends up to this many of the FPops it works on, in order; one that raises an exception stays in
front, and the exception is deferred (10_state.md R76, 60_exceptions.md R755). -/
def fpEndWork : Nat → State → State
  | 0, s => s
  | n + 1, s =>
    match s.fpuMode, s.fpuQueue with
    | .execute, w :: ws =>
      match fpExecute s w with
      | .completes t => fpEndWork n { t with fpuQueue := ws }
      | .raises r => { s with fpuMode := .pending r }
    | _, _ => s

/-- How many FPops must end, the last one with the property among them. -/
def upToLast (p : FpWork → Bool) : List FpWork → Nat
  | [] => 0
  | w :: ws =>
    match upToLast p ws with
    | 0 => if p w then 1 else 0
    | n + 1 => n + 2

/-- The FPU ends the FPops up to the last one an instruction depends on (60_exceptions.md R702). -/
def fpSettle (depends : FpWork → Bool) (s : State) : State :=
  fpEndWork (upToLast depends s.fpuQueue) s

end Sys2Proof.Machine
end

