-- ==== Sys2Proof/Machine/FpLoadStore.lean ====
section
/-! DEFINITION. How the FPU accepts a floating-point instruction (10_state.md R76, 60_exceptions.md
R755), and the floating-point loads and stores (40_load_store.md R335 to R338, R355 to R359). -/

namespace Sys2Proof.Machine

/-- The record of an fp_exception that names only its ftt (60_exceptions.md R719). -/
def fpRecord (ftt : BitVec 3) : FpRecord := ⟨ftt, none⟩

/-- Any floating-point instruction provokes a deferred exception that waits (10_state.md R76, 60_exceptions.md
R755). DESIGN CHOICE: error_mode or an ordinary trap goes by the ET of the instruction that provokes it,
whatever ET was when the FPop began (R707, 93_implementation_defined.md I88; log 14). -/
def fpProvokes (s : State) (k : Res) : Res :=
  match s.fpuMode with
  | .pending r => .trap (.fpException r) s
  | _ => k

/-- In fp_exception a floating-point instruction other than a store is not executed, and the FPU holds a
sequence_error from then on (10_state.md R76, 60_exceptions.md R755; log 15). -/
def fpInSequence (s : State) (k : Res) : Res :=
  match s.fpuMode with
  | .exception => .done (advance { s with fpuMode := .pending (fpRecord 4#3) })
  | _ => k

/-- The FPU ends the FPops that an instruction depends on; an exception it finds is provoked by the
instruction (60_exceptions.md R702; log 14). -/
def fpSettled (s : State) (depends : FpWork → Bool) (k : State → Res) : Res :=
  let s := fpSettle depends s
  fpProvokes s (k s)

/-- Every FPop. -/
def anyWork (_ : FpWork) : Bool := true

/-- Raise invalid_fp_register for an odd double register of a load or store, if the implementation does; it
waits for the FPops before it (40_load_store.md R337, R357, R301; log 14). -/
def evenFreg (s : State) (n : RegNum) (k : Res) : Res :=
  if s.cfg.misalignedFregTraps && n.getLsbD 0 then
    fpSettled s anyWork fun s => .trap (.fpException (fpRecord 6#3)) s
  else k

/-- What a floating-point load that traps with data_access_exception leaves in a destination
(40_load_store.md R335). -/
def faultedFreg (s : State) (n : RegNum) : State :=
  match s.cfg.fpLoadFaultValue with
  | none => s
  | some v => setFreg s n v

/-- A part of the access of a floating-point load; on data_access_exception the destinations `dests` take
FP_LOAD_FAULT_VALUE (40_load_store.md R335). -/
def fpBind {α : Type} (m : MemRes α) (dests : List RegNum) (k : α → State → Res) : Res :=
  match m with
  | .ok v s => k v s
  | .fault .dataAccessException s => .trap .dataAccessException (dests.foldl faultedFreg s)
  | .fault t s => .trap t s

/-- LDF (40_load_store.md R336). -/
def execLdf (rd rs1 : RegNum) (o : Operand2) (s : State) : Host.Outcome State Fault Refusal :=
  let address := effectiveAddress s rs1 o
  (fpEnabled s (aligned s address .word (fpProvokes s (fpInSequence s
    (fpSettled s (fun w => w.touches rd) fun s =>
      fpBind (memRead s .first (dataAsi s) address .word) [rd] fun v s =>
        .done (advance (setFreg s rd v))))))).out

/-- LDDF: an odd rd is found before a sequence error (40_load_store.md R337, R301). DESIGN CHOICE: the even f
register has the first word when the second access faults, as in R337's ISP by R330 and C2; with
FP_LOAD_FAULT_VALUE = unchanged R335 and D23 would leave it as it was (log 43). -/
def execLddf (rd rs1 : RegNum) (o : Operand2) (s : State) : Host.Outcome State Fault Refusal :=
  let address := effectiveAddress s rs1 o
  let dests := [evenReg rd, oddReg rd]
  (fpEnabled s (aligned s address .dword (fpProvokes s (evenFreg s rd (fpInSequence s
    (fpSettled s (fun w => w.touches (evenReg rd) || w.touches (oddReg rd)) fun s =>
      fpBind (route s .first (dataAsi s) address false) dests fun r s =>
        fpBind (readAt s .first r address .dword) dests fun v s =>
          let s := setFreg s (evenReg rd) v
          fpBind (readAt s .second r.next (address + 4#32) .dword) dests fun v s =>
            .done (advance (setFreg s (oddReg rd) v)))))))).out

/-- LDFSR, behind all FPops (40_load_store.md R338); the fcc an FBfcc sees is undefined for three
instructions (70_reset_and_hazards.md R826). DESIGN CHOICE: an LDFSR that traps, which loads nothing, begins no
hazard (log 11). -/
def execLdfsr (rs1 : RegNum) (o : Operand2) (s : State) : Host.Outcome State Fault Refusal :=
  let address := effectiveAddress s rs1 o
  (fpEnabled s (aligned s address .word (fpProvokes s (fpInSequence s
    (fpSettled s anyWork fun s =>
      fpBind (memRead s .first (dataAsi s) address .word) [] fun v s =>
        .done (advance { s with fsr := loadFsr s.cfg s.fsr v, fccWindow := 4 })))))).out

/-- STF; like a load it waits for the FPops that name the register (40_load_store.md R356,
70_reset_and_hazards.md R830). -/
def execStf (rd rs1 : RegNum) (o : Operand2) (s : State) : Host.Outcome State Fault Refusal :=
  let address := effectiveAddress s rs1 o
  (fpEnabled s (aligned s address .word (fpProvokes s
    (fpSettled s (fun w => w.touches rd) fun s =>
      storeInt s (dataAsi s) address .word (freg s rd))))).out

/-- STDF; it waits as STF does (40_load_store.md R357, 70_reset_and_hazards.md R830). -/
def execStdf (rd rs1 : RegNum) (o : Operand2) (s : State) : Host.Outcome State Fault Refusal :=
  let address := effectiveAddress s rs1 o
  (fpEnabled s (aligned s address .dword (fpProvokes s (evenFreg s rd
    (fpSettled s (fun w => w.touches (evenReg rd) || w.touches (oddReg rd)) fun s =>
      storeTwo s (dataAsi s) address (freg s (evenReg rd)) (freg s (oddReg rd)) fun s =>
        .done (advance s)))))).out

/-- STFSR, behind all FPops: the FSR is stored, then ftt <- 0 (40_load_store.md R358). -/
def execStfsr (rs1 : RegNum) (o : Operand2) (s : State) : Host.Outcome State Fault Refusal :=
  let address := effectiveAddress s rs1 o
  (fpEnabled s (aligned s address .word (fpProvokes s
    (fpSettled s anyWork fun s =>
      (memWrite s .first (dataAsi s) address (fsrWord s) .word).bind fun _ s =>
        .done (advance { s with fsr := { s.fsr with ftt := 0#3 } }))))).out

/-- The FQ loses its front entry; when it becomes empty the FPU returns to fp_execute (40_load_store.md
R359). -/
def popFq (s : State) : State :=
  { s with fq := s.fq.tail, fpuMode := if s.fq.tail.isEmpty then .execute else s.fpuMode }

/-- STDFQ, behind all FPops (log 14): sequence_error without a queue or with an empty one; else the front
entry is stored and leaves the queue (40_load_store.md R359). -/
def execStdfq (rs1 : RegNum) (o : Operand2) (s : State) : Host.Outcome State Fault Refusal :=
  let address := effectiveAddress s rs1 o
  (privileged s (fpEnabled s (aligned s address .dword (fpProvokes s
    (fpSettled s anyWork fun s =>
      match s.cfg.fqPresent, s.fq with
      | true, e :: _ =>
        storeTwo s (dataAsi s) address e.address e.instruction fun s => .done (advance (popFq s))
      | _, _ => .trap (.fpException (fpRecord 4#3)) s))))).out

end Sys2Proof.Machine
end

