-- ==== Sys2Proof/Machine/FpArith.lean ====
section
/-! DEFINITION. The FPops (44_fpop.md): dispatch, and one meaning per instruction. -/

namespace Sys2Proof.Machine

/-! ### Dispatch -/

/-- How many FPops must end before one more fits into FQ_DEPTH places (10_state.md R75; log 14). -/
def fpSurplus (s : State) : Nat := s.fpuQueue.length + 1 - s.cfg.fqDepth

/-- The FPU takes an FPop on: it works on it behind those before it, and the IU goes on (10_state.md R75, R76;
60_exceptions.md R755); if there is no place the front ones end first. -/
def fpTakesOn (s : State) (w : FpWork) : Res :=
  let s := fpEndWork (fpSurplus s) s
  fpProvokes s (.done (advance { s with fpuQueue := s.fpuQueue ++ [w] }))

/-- An FPop is executed in its own step; its exception is precise (44_fpop.md R604; 60_exceptions.md R719). -/
def fpAtOnce (s : State) (w : FpWork) : Res :=
  match fpExecute s w with
  | .completes s => .done (advance s)
  | .raises r => .trap (.fpException r) s

/-- The fcc an FBfcc right behind an FPop2 sees is undefined (70_reset_and_hazards.md R825; log 11); behind one
that traps `fetched` has it so. -/
def fpHazard (s : State) (op : FpOp) : State :=
  if op.fpop2 then { s with fccWindow := max s.fccWindow 2 } else s

/-- The hazard begins with an FPop2 that completes or is taken on. -/
def fpThen (op : FpOp) : Res → Res
  | .done s => .done (fpHazard s op)
  | r => r

/-- Does an instruction word belong to UNIMPLEMENTED_INSTRUCTIONS or UNIMPLEMENTED_FPOPS (log 37). -/
def unimplemented (c : Config) (w : Word) : Bool :=
  c.unimplemented.any (fun x => w &&& x.1 == x.2)

/-- An FPop as the FPU takes it: with the registers it names also if the FPU does not implement it
(70_reset_and_hazards.md R830, 44_fpop.md R603). -/
def fpWork (s : State) (op : FpOp) (rd rs1 rs2 : RegNum) : FpWork :=
  ⟨op, rd, rs1, rs2, !unimplemented s.cfg s.instruction, ⟨s.pc, s.instruction⟩⟩

/-- An FPop: fp_disabled, then the state of the FPU, then its execution, at once or with a queue alongside the
IU (44_fpop.md R601). -/
def fpop (s : State) (op : FpOp) (rd rs1 rs2 : RegNum) : Res :=
  let w := fpWork s op rd rs1 rs2
  fpEnabled s (fpProvokes s (fpInSequence s
    (fpThen op (if s.cfg.fqPresent then fpTakesOn s w else fpAtOnce s w))))

/-- A word of no FPop, of FPop1 or of FPop2: RESERVED_OPF_TRAP (44_fpop.md R603). DESIGN CHOICE: its fields name
no f register that a load or store waits for (log 14). -/
def fpUnassigned (s : State) (fpop2 : Bool) : Res :=
  if s.cfg.reservedOpfIllegal then .trap .illegalInstruction s
  else fpop s (.unassigned fpop2) 0#5 0#5 0#5

/-! ### Conversions -/

/-- FiTOs (44_fpop.md R615). -/
def execFitos (rd rs2 : RegNum) (s : State) : Host.Outcome State Fault Refusal :=
  (fpop s (.ofInt .single) rd 0#5 rs2).out

/-- FiTOd (44_fpop.md R616). -/
def execFitod (rd rs2 : RegNum) (s : State) : Host.Outcome State Fault Refusal :=
  (fpop s (.ofInt .double) rd 0#5 rs2).out

/-- FiTOq (44_fpop.md R617). -/
def execFitoq (rd rs2 : RegNum) (s : State) : Host.Outcome State Fault Refusal :=
  (fpop s (.ofInt .quad) rd 0#5 rs2).out

/-- FsTOi (44_fpop.md R620). -/
def execFstoi (rd rs2 : RegNum) (s : State) : Host.Outcome State Fault Refusal :=
  (fpop s (.toInt .single) rd 0#5 rs2).out

/-- FdTOi (44_fpop.md R621). -/
def execFdtoi (rd rs2 : RegNum) (s : State) : Host.Outcome State Fault Refusal :=
  (fpop s (.toInt .double) rd 0#5 rs2).out

/-- FqTOi (44_fpop.md R622). -/
def execFqtoi (rd rs2 : RegNum) (s : State) : Host.Outcome State Fault Refusal :=
  (fpop s (.toInt .quad) rd 0#5 rs2).out

/-- FsTOd (44_fpop.md R625). -/
def execFstod (rd rs2 : RegNum) (s : State) : Host.Outcome State Fault Refusal :=
  (fpop s (.convert .single .double) rd 0#5 rs2).out

/-- FsTOq (44_fpop.md R626). -/
def execFstoq (rd rs2 : RegNum) (s : State) : Host.Outcome State Fault Refusal :=
  (fpop s (.convert .single .quad) rd 0#5 rs2).out

/-- FdTOs (44_fpop.md R627). -/
def execFdtos (rd rs2 : RegNum) (s : State) : Host.Outcome State Fault Refusal :=
  (fpop s (.convert .double .single) rd 0#5 rs2).out

/-- FdTOq (44_fpop.md R628). -/
def execFdtoq (rd rs2 : RegNum) (s : State) : Host.Outcome State Fault Refusal :=
  (fpop s (.convert .double .quad) rd 0#5 rs2).out

/-- FqTOs (44_fpop.md R629). -/
def execFqtos (rd rs2 : RegNum) (s : State) : Host.Outcome State Fault Refusal :=
  (fpop s (.convert .quad .single) rd 0#5 rs2).out

/-- FqTOd (44_fpop.md R630). -/
def execFqtod (rd rs2 : RegNum) (s : State) : Host.Outcome State Fault Refusal :=
  (fpop s (.convert .quad .double) rd 0#5 rs2).out

/-! ### Moves -/

/-- FMOVs (44_fpop.md R635). -/
def execFmovs (rd rs2 : RegNum) (s : State) : Host.Outcome State Fault Refusal :=
  (fpop s .move rd 0#5 rs2).out

/-- FNEGs (44_fpop.md R636). -/
def execFnegs (rd rs2 : RegNum) (s : State) : Host.Outcome State Fault Refusal :=
  (fpop s .negate rd 0#5 rs2).out

/-- FABSs (44_fpop.md R637). -/
def execFabss (rd rs2 : RegNum) (s : State) : Host.Outcome State Fault Refusal :=
  (fpop s .absolute rd 0#5 rs2).out

/-! ### Square root -/

/-- FSQRTs (44_fpop.md R640). -/
def execFsqrts (rd rs2 : RegNum) (s : State) : Host.Outcome State Fault Refusal :=
  (fpop s (.sqrt .single) rd 0#5 rs2).out

/-- FSQRTd (44_fpop.md R641). -/
def execFsqrtd (rd rs2 : RegNum) (s : State) : Host.Outcome State Fault Refusal :=
  (fpop s (.sqrt .double) rd 0#5 rs2).out

/-- FSQRTq (44_fpop.md R642). -/
def execFsqrtq (rd rs2 : RegNum) (s : State) : Host.Outcome State Fault Refusal :=
  (fpop s (.sqrt .quad) rd 0#5 rs2).out

/-! ### Add, subtract, multiply, divide -/

/-- FADDs (44_fpop.md R645). -/
def execFadds (rd rs1 rs2 : RegNum) (s : State) : Host.Outcome State Fault Refusal :=
  (fpop s (.add .single) rd rs1 rs2).out

/-- FADDd (44_fpop.md R646). -/
def execFaddd (rd rs1 rs2 : RegNum) (s : State) : Host.Outcome State Fault Refusal :=
  (fpop s (.add .double) rd rs1 rs2).out

/-- FADDq (44_fpop.md R647). -/
def execFaddq (rd rs1 rs2 : RegNum) (s : State) : Host.Outcome State Fault Refusal :=
  (fpop s (.add .quad) rd rs1 rs2).out

/-- FSUBs (44_fpop.md R648). -/
def execFsubs (rd rs1 rs2 : RegNum) (s : State) : Host.Outcome State Fault Refusal :=
  (fpop s (.sub .single) rd rs1 rs2).out

/-- FSUBd (44_fpop.md R649). -/
def execFsubd (rd rs1 rs2 : RegNum) (s : State) : Host.Outcome State Fault Refusal :=
  (fpop s (.sub .double) rd rs1 rs2).out

/-- FSUBq (44_fpop.md R650). -/
def execFsubq (rd rs1 rs2 : RegNum) (s : State) : Host.Outcome State Fault Refusal :=
  (fpop s (.sub .quad) rd rs1 rs2).out

/-- FMULs (44_fpop.md R655). -/
def execFmuls (rd rs1 rs2 : RegNum) (s : State) : Host.Outcome State Fault Refusal :=
  (fpop s (.mul .single .single) rd rs1 rs2).out

/-- FMULd (44_fpop.md R656). -/
def execFmuld (rd rs1 rs2 : RegNum) (s : State) : Host.Outcome State Fault Refusal :=
  (fpop s (.mul .double .double) rd rs1 rs2).out

/-- FMULq (44_fpop.md R657). -/
def execFmulq (rd rs1 rs2 : RegNum) (s : State) : Host.Outcome State Fault Refusal :=
  (fpop s (.mul .quad .quad) rd rs1 rs2).out

/-- FsMULd (44_fpop.md R658). -/
def execFsmuld (rd rs1 rs2 : RegNum) (s : State) : Host.Outcome State Fault Refusal :=
  (fpop s (.mul .single .double) rd rs1 rs2).out

/-- FdMULq (44_fpop.md R659). -/
def execFdmulq (rd rs1 rs2 : RegNum) (s : State) : Host.Outcome State Fault Refusal :=
  (fpop s (.mul .double .quad) rd rs1 rs2).out

/-- FDIVs (44_fpop.md R660). -/
def execFdivs (rd rs1 rs2 : RegNum) (s : State) : Host.Outcome State Fault Refusal :=
  (fpop s (.div .single) rd rs1 rs2).out

/-- FDIVd (44_fpop.md R661). -/
def execFdivd (rd rs1 rs2 : RegNum) (s : State) : Host.Outcome State Fault Refusal :=
  (fpop s (.div .double) rd rs1 rs2).out

/-- FDIVq (44_fpop.md R662). -/
def execFdivq (rd rs1 rs2 : RegNum) (s : State) : Host.Outcome State Fault Refusal :=
  (fpop s (.div .quad) rd rs1 rs2).out

/-! ### Compare -/

/-- FCMPs (44_fpop.md R665). -/
def execFcmps (rs1 rs2 : RegNum) (s : State) : Host.Outcome State Fault Refusal :=
  (fpop s (.compare .single false) 0#5 rs1 rs2).out

/-- FCMPd (44_fpop.md R666). -/
def execFcmpd (rs1 rs2 : RegNum) (s : State) : Host.Outcome State Fault Refusal :=
  (fpop s (.compare .double false) 0#5 rs1 rs2).out

/-- FCMPq (44_fpop.md R667). -/
def execFcmpq (rs1 rs2 : RegNum) (s : State) : Host.Outcome State Fault Refusal :=
  (fpop s (.compare .quad false) 0#5 rs1 rs2).out

/-- FCMPEs (44_fpop.md R668). -/
def execFcmpes (rs1 rs2 : RegNum) (s : State) : Host.Outcome State Fault Refusal :=
  (fpop s (.compare .single true) 0#5 rs1 rs2).out

/-- FCMPEd (44_fpop.md R669). -/
def execFcmped (rs1 rs2 : RegNum) (s : State) : Host.Outcome State Fault Refusal :=
  (fpop s (.compare .double true) 0#5 rs1 rs2).out

/-- FCMPEq (44_fpop.md R670). -/
def execFcmpeq (rs1 rs2 : RegNum) (s : State) : Host.Outcome State Fault Refusal :=
  (fpop s (.compare .quad true) 0#5 rs1 rs2).out

/-! ### Unassigned opf -/

/-- FPop1 with an unassigned opf (44_fpop.md R603). -/
def execFpop1Unassigned (_rd _rs1 : RegNum) (_opf : BitVec 9) (_rs2 : RegNum) (s : State) :
    Host.Outcome State Fault Refusal :=
  (fpUnassigned s false).out

/-- FPop2 with an unassigned opf (44_fpop.md R603). -/
def execFpop2Unassigned (_rd _rs1 : RegNum) (_opf : BitVec 9) (_rs2 : RegNum) (s : State) :
    Host.Outcome State Fault Refusal :=
  (fpUnassigned s true).out

end Sys2Proof.Machine
end

