-- ==== Sys2Proof/Machine/StateRegs.lean ====
section
/-! DEFINITION. Reading and writing the state registers, STBAR, UNIMP, FLUSH and the patterns that stand
for no instruction (43_state_regs_misc.md R560 to R590; 30_encoding.md R242). -/

namespace Sys2Proof.Machine

/-- r[rd] <- a state register (43_state_regs_misc.md R560). -/
def readStateReg (s : State) (rd : RegNum) (v : Word) : State := advance (setReg s rd v)

/-- The value a write state register instruction writes: the exclusive or (43_state_regs_misc.md R570). -/
def writtenValue (s : State) (rs1 : RegNum) (o : Operand2) : Word := reg s rs1 ^^^ operand2 s o

/-- The storage of ASR n, 16 ≤ n. -/
def asrIndex (n : RegNum) : Fin 16 := Fin.ofNat 16 (n.toNat - 16)

/-- Raise privileged_instruction in user mode for an ASR that is privileged, else go on (43_state_regs_misc.md
R561, R571; 00_scope.md R7). -/
def asrPrivilege (s : State) (n : RegNum) (k : Res) : Res :=
  if s.cfg.asrPrivileged.getLsbD n.toNat then privileged s k else k

/-- Raise illegal_instruction for an ASR of 16 to 31 that is not implemented, else go on
(43_state_regs_misc.md R561, R571). -/
def asrPresent (s : State) (n : RegNum) (k : Res) : Res :=
  if s.cfg.asrImplemented.getLsbD (n.toNat - 16) then k else .trap .illegalInstruction s

/-! ### Read state register -/

/-- RDY (43_state_regs_misc.md R562). -/
def execRdy (rd : RegNum) (s : State) : Host.Outcome State Fault Refusal :=
  .next (readStateReg s rd s.y)

/-- RDASR (43_state_regs_misc.md R561): of ASR 1 to 15 the value is free (log 12); an implemented ASR
16 to 31 is storage (log 13). -/
def execRdasr (rd rs1 : RegNum) (s : State) : Host.Outcome State Fault Refusal :=
  (asrPrivilege s rs1
    (if rs1.toNat < 16 then
      .done
        (readStateReg { s with freeDraws := s.freeDraws + 1 } rd
          (Config.asrReservedRead rs1 s.freeDraws))
    else asrPresent s rs1 (.done (readStateReg s rd s.asr[asrIndex rs1])))).out

/-- RDPSR (43_state_regs_misc.md R563). -/
def execRdpsr (rd : RegNum) (s : State) : Host.Outcome State Fault Refusal :=
  (privileged s (.done (readStateReg s rd (psrWord s)))).out

/-- RDWIM (43_state_regs_misc.md R564). -/
def execRdwim (rd : RegNum) (s : State) : Host.Outcome State Fault Refusal :=
  (privileged s (.done (readStateReg s rd (wimWord s)))).out

/-- RDTBR (43_state_regs_misc.md R565). -/
def execRdtbr (rd : RegNum) (s : State) : Host.Outcome State Fault Refusal :=
  (privileged s (.done (readStateReg s rd (tbrWord s)))).out

/-! ### Write state register: delayed writes (70_reset_and_hazards.md R820) -/

/-- WRY (43_state_regs_misc.md R572). -/
def execWry (rs1 : RegNum) (o : Operand2) (s : State) : Host.Outcome State Fault Refusal :=
  .next (advance (delayWrite s .y (writtenValue s rs1 o)))

/-- WRASR (43_state_regs_misc.md R571): of ASR 1 to 15 it changes nothing (log 12). -/
def execWrasr (rd rs1 : RegNum) (o : Operand2) (s : State) : Host.Outcome State Fault Refusal :=
  (asrPrivilege s rd
    (if rd.toNat < 16 then .done (advance s)
    else
      asrPresent s rd
        (.done (advance (delayWrite s (.asr (asrIndex rd)) (writtenValue s rs1 o)))))).out

/-- WRPSR (43_state_regs_misc.md R573): illegal_instruction if the value names a window that does not
exist. -/
def execWrpsr (rs1 : RegNum) (o : Operand2) (s : State) : Host.Outcome State Fault Refusal :=
  let v := writtenValue s rs1 o
  (privileged s
    (if s.cfg.nwindows ≤ (v.extractLsb' 0 5).toNat then .trap .illegalInstruction s
    else .done (advance (delayWrite s .psr v)))).out

/-- WRWIM (43_state_regs_misc.md R574). -/
def execWrwim (rs1 : RegNum) (o : Operand2) (s : State) : Host.Outcome State Fault Refusal :=
  (privileged s (.done (advance (delayWrite s .wim (writtenValue s rs1 o))))).out

/-- WRTBR (43_state_regs_misc.md R576). -/
def execWrtbr (rs1 : RegNum) (o : Operand2) (s : State) : Host.Outcome State Fault Refusal :=
  (privileged s (.done (advance (delayWrite s .tbr (writtenValue s rs1 o))))).out

/-! ### STBAR, UNIMP, FLUSH, unused patterns -/

/-- STBAR: store_barrier_pending <- 1 (43_state_regs_misc.md R580, 20_memory.md R135). -/
def execStbar (s : State) : Host.Outcome State Fault Refusal :=
  .next (advance { s with storeBarrierPending := true })

/-- UNIMP (43_state_regs_misc.md R585). -/
def execUnimp (_const22 : BitVec 22) (s : State) : Host.Outcome State Fault Refusal :=
  (Res.trap .illegalInstruction s).out

/-- Does a copy belong to the doubleword at an address: its word stands where the address does in memory, by
whatever address it was stored to, or it was stored to there (20_memory.md R139, R140). DESIGN CHOICE: FLUSH
looks its address up as the MMU would translate it now, which raises nothing, changes nothing and meets no error
of memory; of an address without translation only the copies stored to by that address belong to it (log 27). -/
def inDoubleword (s : State) (address : Word) (x : StaleWord) : Bool :=
  x.va.toNat / 8 == address.toNat / 8 || (physicalOf s address).any (fun pa => pa / 8 == x.pa / 8)

/-- The instruction buffer's copies of the doubleword at an address go within five more instructions
(20_memory.md R140; log 27). -/
def flushDoubleword (s : State) (address : Word) : State :=
  { s with
    staleWords :=
      s.staleWords.map (fun x =>
        if inDoubleword s address x && x.flushIn.isNone then { x with flushIn := some 6 } else x) }

/-- FLUSH (43_state_regs_misc.md R590). -/
def execFlush (rs1 : RegNum) (o : Operand2) (s : State) : Host.Outcome State Fault Refusal :=
  (match s.cfg.flushImpl with
  | .inHardware => Res.done (advance (flushDoubleword s (effectiveAddress s rs1 o)))
  | .trapsUnimplementedFlush => .trap .unimplementedFlush s
  | .trapsIllegalInstruction => .trap .illegalInstruction s).out

/-- The format 2 patterns of no instruction (30_encoding.md R236, R242). -/
def execUnassignedOp2 (_op2 : BitVec 3) (s : State) : Host.Outcome State Fault Refusal :=
  (Res.trap .illegalInstruction s).out

/-- The format 3 patterns of no instruction, op = 2 (30_encoding.md R237, R242). -/
def execUnassignedOp3Arith (_op3 : BitVec 6) (s : State) : Host.Outcome State Fault Refusal :=
  (Res.trap .illegalInstruction s).out

/-- The format 3 patterns of no instruction, op = 3 (30_encoding.md R238, R242). -/
def execUnassignedOp3Mem (_op3 : BitVec 6) (s : State) : Host.Outcome State Fault Refusal :=
  (Res.trap .illegalInstruction s).out

end Sys2Proof.Machine
end

