-- ==== Sys2Proof/Machine/Cycle.lean ====
section
/-! DEFINITION. The instruction cycle around the execution of an instruction (70_reset_and_hazards.md
R800, R810): the environment's inputs, reset and error_mode, interrupts, the turn of the delayed writes,
the annulled instruction, the fetch. -/

namespace Sys2Proof.Machine

/-- The environment's record for this step, the quiet one if it has none left (log 10). -/
def takeInputs (s : State) : State :=
  { s with now := s.inputs.headD Inputs.quiet, inputs := s.inputs.tail }

/-- reset_mode is left, with the reset trap, when bp_reset_in is released (R800, R801). -/
def resetCycle (s : State) : State := if s.now.resetIn then s else resetTrap s

/-- error_mode is left for reset_mode when bp_reset_in is asserted; with RESET_ON_ERROR the next step is
a reset trap (R800, R804, D21). -/
def errorCycle (s : State) : State :=
  if s.now.resetIn then { s with mode := .reset, pbError := false }
  else if s.cfg.resetOnError then resetTrap s
  else s

/-- PSR_eff: the PSR as it will be after all delayed writes (70_reset_and_hazards.md R820). -/
def effectivePsr (s : State) : Psr := (commitAll s).psr

/-- The interrupt request that is taken: ET = 1 and the level is 15 or above PIL, of PSR_eff
(60_exceptions.md R760, 70_reset_and_hazards.md R820). -/
def interruptTaken (s : State) : Option Trap :=
  let psr := effectivePsr s
  if psr.et && (s.now.irl == 15#4 || decide (psr.pil < s.now.irl)) then
    some (.interruptLevel s.now.irl)
  else none

/-- The exception taken between two instructions: an interrupting machine check the environment presents, which
ET = 0 makes ignored, else an interrupt (60_exceptions.md R703, R705, R707; log 26). DESIGN CHOICE: a trap 0x60
to 0x7F comes before an interrupt request of the same step, of which R705, R734 and I81 leave the order to the
implementation; and the ET that decides on it and on data_store_error is that of PSR_eff, which R820 gives for
the interrupt condition only and R703 and R707 do not settle (log 26). -/
def interruptingTrap (s : State) : Option Trap :=
  if (effectivePsr s).et then
    match s.now.machineCheck with
    | some .dataStoreError => some .dataStoreError
    | some (.implementationDependent n) => some (.implementationDependent n)
    | _ => interruptTaken s
  else none

/-- The delay of a FLUSH runs down; at its end the copy is gone (20_memory.md R140). -/
def tickStale (xs : List StaleWord) : List StaleWord :=
  (xs.map (fun x => { x with flushIn := x.flushIn.map (· - 1) })).filter
    (fun x => x.flushIn != some 0)

/-- The turn of everything delayed, once per instruction cycle before the fetch (R810, R820). A FLUSH counts
executed instructions (20_memory.md R140). DESIGN CHOICE: every instruction that reaches the turn counts as
one, an instruction that traps and each try of a waiting LDSTUB or SWAP among them, an annulled one does not
(log 27). -/
def turn (s : State) : State :=
  let s := tickPending s
  if s.annul then s else { s with staleWords := tickStale s.staleWords }

/-- An annulled instruction: fetched, whatever comes of it, and skipped (R810, 42_control_transfer.md
R506; log 32). -/
def skipAnnulled (s : State) : State := advance { s with annul := false }

/-- Is a word an FPop: op = 2, op3 = 0x34 or 0x35 (30_encoding.md R237). -/
def isFpopWord (w : Word) : Bool :=
  w.extractLsb' 30 2 == 2#2 && (w.extractLsb' 19 6 == 0x34#6 || w.extractLsb' 19 6 == 0x35#6)

/-- Is a word a CPop: op = 2, op3 = 0x36 or 0x37 (45_cpop.md R680, R681). -/
def isCpopWord (w : Word) : Bool :=
  w.extractLsb' 30 2 == 2#2 && (w.extractLsb' 19 6 == 0x36#6 || w.extractLsb' 19 6 == 0x37#6)

/-- Is an instruction privileged (60_exceptions.md R713): the alternate-space loads and stores, STDFQ, STDCQ,
RDPSR, RDWIM, RDTBR, WRPSR, WRWIM, WRTBR, RETT, and RDASR and WRASR of a privileged ASR; no other is. -/
def isPrivileged (c : Config) : Instr → Bool
  | .ldsba _ _ _ => true
  | .ldsha _ _ _ => true
  | .lduba _ _ _ => true
  | .lduha _ _ _ => true
  | .lda _ _ _ => true
  | .ldda _ _ _ => true
  | .stba _ _ _ => true
  | .stha _ _ _ => true
  | .sta _ _ _ => true
  | .stda _ _ _ => true
  | .ldstuba _ _ _ => true
  | .swapa _ _ _ => true
  | .stdfq _ _ => true
  | .stdcq _ _ => true
  | .rdpsr _ => true
  | .rdwim _ => true
  | .rdtbr _ => true
  | .wrpsr _ _ => true
  | .wrwim _ _ => true
  | .wrtbr _ _ => true
  | .rett _ _ => true
  | .rdasr _ rs1 => c.asrPrivileged.getLsbD rs1.toNat
  | .wrasr rd _ _ => c.asrPrivileged.getLsbD rd.toNat
  | _ => false

/-- Does an instruction that may run raise illegal_instruction (60_exceptions.md R712). -/
def isIllegal (s : State) : Instr → Bool
  | .unimp _ => true
  | .unassignedOp2 _ => true
  | .unassignedOp3Arith _ => true
  | .unassignedOp3Mem _ => true
  | .ldsba _ _ (.imm _) => true
  | .ldsha _ _ (.imm _) => true
  | .lduba _ _ (.imm _) => true
  | .lduha _ _ (.imm _) => true
  | .lda _ _ (.imm _) => true
  | .ldda _ _ (.imm _) => true
  | .stba _ _ (.imm _) => true
  | .stha _ _ (.imm _) => true
  | .sta _ _ (.imm _) => true
  | .stda _ _ (.imm _) => true
  | .ldstuba _ _ (.imm _) => true
  | .swapa _ _ (.imm _) => true
  | .ldd rd _ _ => s.cfg.oddRdLddTraps && rd.getLsbD 0
  | .std rd _ _ => s.cfg.oddRdLddTraps && rd.getLsbD 0
  | .ldda rd _ (.reg _ _) => s.cfg.oddRdLddTraps && rd.getLsbD 0
  | .stda rd _ (.reg _ _) => s.cfg.oddRdLddTraps && rd.getLsbD 0
  | .wrpsr rs1 o => decide (s.cfg.nwindows ≤ ((writtenValue s rs1 o).extractLsb' 0 5).toNat)
  | .rett _ _ => s.psr.et
  | .rdasr _ rs1 => decide (16 ≤ rs1.toNat) && !s.cfg.asrImplemented.getLsbD (rs1.toNat - 16)
  | .wrasr rd _ _ => decide (16 ≤ rd.toNat) && !s.cfg.asrImplemented.getLsbD (rd.toNat - 16)
  | .fpop1Unassigned _ _ _ _ => s.cfg.reservedOpfIllegal
  | .fpop2Unassigned _ _ _ _ => s.cfg.reservedOpfIllegal
  | .flush _ _ => s.cfg.flushImpl == .trapsIllegalInstruction
  | _ => false

/-- Does an instruction belong to the FPU: FBfcc, FPops, floating-point loads and stores (30_encoding.md R236
to R238). -/
def usesFpu (i : Instr) : Bool :=
  match encodeFormat i with
  | .fmt2 _ op2 _ => op2 == 6#3
  | .fmt3 false _ op3 _ _ => op3 == 0x34#6 || op3 == 0x35#6
  | .fmt3 true _ op3 _ _ => [0x20#6, 0x21#6, 0x23#6, 0x24#6, 0x25#6, 0x26#6, 0x27#6].contains op3
  | .call _ => false

/-- Does an instruction belong to the coprocessor: CBccc, CPops, coprocessor loads and stores. -/
def usesCp (i : Instr) : Bool :=
  match encodeFormat i with
  | .fmt2 _ op2 _ => op2 == 7#3
  | .fmt3 false _ op3 _ _ => op3 == 0x36#6 || op3 == 0x37#6
  | .fmt3 true _ op3 _ _ => [0x30#6, 0x31#6, 0x33#6, 0x34#6, 0x35#6, 0x36#6, 0x37#6].contains op3
  | .call _ => false

/-- Does an instruction raise fp_disabled, cp_disabled or unimplemented_FLUSH (60_exceptions.md R714, R715,
R729). -/
def isDisabled (s : State) (i : Instr) : Bool :=
  usesFpu i && !efOn s || usesCp i && !ecOn s
    || match i with
      | .flush _ _ => s.cfg.flushImpl == .trapsUnimplementedFlush
      | _ => false

/-- The privilege check of an instruction that is not executed: privileged_instruction in user mode, of RETT
with ET = 0 the entry to error_mode (60_exceptions.md R713, 42_control_transfer.md R541), else go on. -/
def privilegeOf (s : State) (i : Instr) (k : Res) : Res :=
  if isPrivileged s.cfg i && !s.psr.s then
    match i with
    | .rett _ _ =>
      if s.psr.et then .trap .privilegedInstruction s else .done (rettError .privilegedInstruction s)
    | _ => .trap .privilegedInstruction s
  else k

/-- What an unimplemented instruction that is no FPop raises (60_exceptions.md R712 (4), R720): the check of S
comes before it (R736). DESIGN CHOICE: the illegal_instruction of an unimplemented RETT in supervisor mode with
ET = 0 enters error_mode with tt unwritten, since R745 leaves open whether it counts with R541's three (log 44). -/
def unimplementedTrap (s : State) (w : Word) (i : Instr) : Res :=
  if isCpopWord w then cpEnabled s (.trap .cpException s)
  else privilegeOf s i (.trap .illegalInstruction s)

/-- Does an instruction raise one of the exceptions that stand above watchpoint_detected in Table 7-1:
privileged_instruction, illegal_instruction, and of its own priority fp_disabled, cp_disabled and
unimplemented_FLUSH (60_exceptions.md R705). -/
def outranksWatchpoint (s : State) (w : Word) (i : Instr) : Bool :=
  (isPrivileged s.cfg i && !s.psr.s) || isIllegal s i
    || (unimplemented s.cfg w && !isFpopWord w && !isCpopWord w) || isDisabled s i

/-- What a fetched instruction meets before it executes: a peremptory error of the register file (priority
4), a watchpoint (the last of 8), an unimplemented instruction other than an FPop, which the FPU finds itself
(60_exceptions.md R705, R728, R733, R712; log 37). DESIGN CHOICE: a RETT with ET = 0 that meets
r_register_access_error or a watchpoint enters error_mode with tt unwritten, since R745 leaves open whether it
counts with R541's three checks (log 44). -/
def beforeExecution (s : State) (w : Word) (i : Instr) : Option Res :=
  if s.now.machineCheck = some .rRegisterAccessError then some (.trap .rRegisterAccessError s)
  else if s.now.machineCheck = some .watchpointDetected && !outranksWatchpoint s w i then
    some (.trap .watchpointDetected s)
  else if unimplemented s.cfg w && !isFpopWord w then some (unimplementedTrap s w i)
  else none

/-- What a step comes to before its instruction executes: it is over, or the instruction is executed in a
state. -/
inductive Prepared where
  | ended (r : Host.Outcome State Fault Refusal)
  | run (i : Instr) (s : State)

/-- Is a word an FPop2: op = 2, op3 = 0x35 (30_encoding.md R237). -/
def isFpop2Word (w : Word) : Bool := w.extractLsb' 30 2 == 2#2 && w.extractLsb' 19 6 == 0x35#6

/-- The count of the fcc hazard as an instruction is executed: it runs down, and behind an FPop2, whatever comes
of it, an FBfcc is in the hazard (44_fpop.md R609; 70_reset_and_hazards.md R825, R826; log 11). -/
def fccTurn (w : Word) (left : Nat) : Nat := max (left - 1) (if isFpop2Word w then 2 else 0)

/-- An instruction fetched in a state that has turned: the hazards count the instructions executed
(70_reset_and_hazards.md R820, R825, R826; 43_state_regs_misc.md R575; 42_control_transfer.md R517). DESIGN
CHOICE: an instruction that itself traps counts as executed, and each try of a waiting LDSTUB or SWAP counts as
one, to the fcc hazard, the hazard of the delayed writes and, in `turn`, the delayed writes themselves (log 6,
log 11, log 38). -/
def fetched (s : State) (w : Word) : Prepared :=
  let s :=
    { s with
      instruction := w, fccWindow := fccTurn w s.fccWindow, recentWrites := tickRecent s.recentWrites }
  match decode (bytesOfWord w) with
  | .error _ => .ended (.fault .truncatedInstruction)
  | .ok (i, _) =>
    match beforeExecution s w i with
    | some r => .ended r.out
    | none => .run i s

/-- The cycle from the turn on: the annulled instruction, or the fetch (R810). DESIGN CHOICE: an instruction
whose own fetch faults, of which no word is known, does not count among the instructions behind an LDFSR or
FPop2, of which R825 and R826 say nothing (log 11). -/
def fetchCycle (s : State) : Prepared :=
  if s.annul then
    match fetch s with
    | .ok _ s => .ended (.next (skipAnnulled s))
    | .fault _ s => .ended (.next (skipAnnulled s))
  else
    match fetch s with
    | .ok w s => fetched s w
    | .fault t s => .ended (.next (takeTrap t s))

/-- An exception of a CPop becomes outstanding when the environment says so, of a coprocessor with a queue
(45_cpop.md R680, R682, 60_exceptions.md R702, R720; log 16). -/
def cpDefers (s : State) : State :=
  match s.now.cpDeferred with
  | some cpop =>
    if s.cfg.cpPresent && s.cfg.cqPresent then { cpDoes s (.defer cpop) with cpPending := true } else s
  | none => s

/-- One cycle in execute_mode up to the execution of the instruction (R810): reset; the FPU ends what it ends
now of the FPops it works on (10_state.md R76; log 14); an interrupting trap, else the instruction. -/
def executeCycle (s : State) : Prepared :=
  if s.now.resetIn then .ended (.next { s with mode := .reset })
  else
    let s := cpDefers (fpEndWork s.now.fpuEnds s)
    match interruptingTrap s with
    | some t => .ended (.next (takeTrap t s))
    | none => fetchCycle (turn s)

/-- One cycle up to the execution of an instruction (R800, R810). -/
def prepare (s : State) : Prepared :=
  let s := takeInputs s
  match s.mode with
  | .reset => .ended (.next (resetCycle s))
  | .error => .ended (.next (errorCycle s))
  | .execute => executeCycle s

/-- Where the next fetch reads: PC's physical address; untranslated if the translation faults. -/
def nextFetchPa (s : State) : Nat :=
  match fetchPa (turn s) with
  | some pa => pa
  | none => s.pc.toNat

/-- A state whose next step executes an instruction: in execute_mode, not annulled, with a quiet
environment, and with the MMU disabled if PC's translation faults. -/
def readyToFetch (s : State) : State :=
  let s := { s with mode := .execute, annul := false, inputs := [] }
  match fetchPa (turn s) with
  | some _ => s
  | none => { s with mmu := { s.mmu with e := false } }

end Sys2Proof.Machine
end

