-- ==== Sys2Proof/Machine/Branch.lean ====
section
/-! DEFINITION. The branches on the integer, floating-point and coprocessor condition codes
(42_control_transfer.md R510 to R521). -/

namespace Sys2Proof.Machine

/-- A conditional-delayed transfer: nPC takes the target or goes on; the delay instruction is annulled if
a = 1 and the branch is not taken or is the unconditional one (42_control_transfer.md R504, R510). -/
def branch (s : State) (taken always a : Bool) (disp : BitVec 22) : State :=
  if taken then
    { s with pc := s.npc, npc := branchTarget s disp, annul := s.annul || (always && a) }
  else { s with pc := s.npc, npc := s.npc + 4#32, annul := s.annul || a }

/-- FBfcc: fp_disabled, then the state of the FPU, the FPops that write fcc, then the branch; in the hazard
window the fcc it sees is free (42_control_transfer.md R515, R517; 70_reset_and_hazards.md R825, R826; log
11). -/
def fbfcc (s : State) (cond : BitVec 4) (always a : Bool) (disp : BitVec 22) : Res :=
  fpEnabled s (fpProvokes s (fpInSequence s (fpSettled s FpWork.compares fun s =>
    if s.fccWindow = 0 then .done (branch s (fccTest s.fsr.fcc cond) always a disp)
    else
      let taken := fccTest (Config.hazardFcc s.freeDraws) cond
      .done (branch { s with freeDraws := s.freeDraws + 1 } taken always a disp))))

/-- CBccc: cp_disabled, then cp_exception if the coprocessor raises it, then the branch
(42_control_transfer.md R520). -/
def cbccc (s : State) (cond : BitVec 4) (always a : Bool) (disp : BitVec 22) : Res :=
  cpEnabled s (cpAccepted s (.branch cond)
    (.done (branch s (cpTest s.cp.cc cond) always a disp)))

/-! ### Bicc -/

/-- bn (42_control_transfer.md R511). -/
def execBn (a : Bool) (disp : BitVec 22) (s : State) : Host.Outcome State Fault Refusal :=
  .next (branch s (iccTest s.psr.icc 0#4) false a disp)

/-- be (42_control_transfer.md R511). -/
def execBe (a : Bool) (disp : BitVec 22) (s : State) : Host.Outcome State Fault Refusal :=
  .next (branch s (iccTest s.psr.icc 1#4) false a disp)

/-- ble (42_control_transfer.md R511). -/
def execBle (a : Bool) (disp : BitVec 22) (s : State) : Host.Outcome State Fault Refusal :=
  .next (branch s (iccTest s.psr.icc 2#4) false a disp)

/-- bl (42_control_transfer.md R511). -/
def execBl (a : Bool) (disp : BitVec 22) (s : State) : Host.Outcome State Fault Refusal :=
  .next (branch s (iccTest s.psr.icc 3#4) false a disp)

/-- bleu (42_control_transfer.md R511). -/
def execBleu (a : Bool) (disp : BitVec 22) (s : State) : Host.Outcome State Fault Refusal :=
  .next (branch s (iccTest s.psr.icc 4#4) false a disp)

/-- bcs (42_control_transfer.md R511). -/
def execBcs (a : Bool) (disp : BitVec 22) (s : State) : Host.Outcome State Fault Refusal :=
  .next (branch s (iccTest s.psr.icc 5#4) false a disp)

/-- bneg (42_control_transfer.md R511). -/
def execBneg (a : Bool) (disp : BitVec 22) (s : State) : Host.Outcome State Fault Refusal :=
  .next (branch s (iccTest s.psr.icc 6#4) false a disp)

/-- bvs (42_control_transfer.md R511). -/
def execBvs (a : Bool) (disp : BitVec 22) (s : State) : Host.Outcome State Fault Refusal :=
  .next (branch s (iccTest s.psr.icc 7#4) false a disp)

/-- ba (42_control_transfer.md R511). -/
def execBa (a : Bool) (disp : BitVec 22) (s : State) : Host.Outcome State Fault Refusal :=
  .next (branch s (iccTest s.psr.icc 8#4) true a disp)

/-- bne (42_control_transfer.md R511). -/
def execBne (a : Bool) (disp : BitVec 22) (s : State) : Host.Outcome State Fault Refusal :=
  .next (branch s (iccTest s.psr.icc 9#4) false a disp)

/-- bg (42_control_transfer.md R511). -/
def execBg (a : Bool) (disp : BitVec 22) (s : State) : Host.Outcome State Fault Refusal :=
  .next (branch s (iccTest s.psr.icc 10#4) false a disp)

/-- bge (42_control_transfer.md R511). -/
def execBge (a : Bool) (disp : BitVec 22) (s : State) : Host.Outcome State Fault Refusal :=
  .next (branch s (iccTest s.psr.icc 11#4) false a disp)

/-- bgu (42_control_transfer.md R511). -/
def execBgu (a : Bool) (disp : BitVec 22) (s : State) : Host.Outcome State Fault Refusal :=
  .next (branch s (iccTest s.psr.icc 12#4) false a disp)

/-- bcc (42_control_transfer.md R511). -/
def execBcc (a : Bool) (disp : BitVec 22) (s : State) : Host.Outcome State Fault Refusal :=
  .next (branch s (iccTest s.psr.icc 13#4) false a disp)

/-- bpos (42_control_transfer.md R511). -/
def execBpos (a : Bool) (disp : BitVec 22) (s : State) : Host.Outcome State Fault Refusal :=
  .next (branch s (iccTest s.psr.icc 14#4) false a disp)

/-- bvc (42_control_transfer.md R511). -/
def execBvc (a : Bool) (disp : BitVec 22) (s : State) : Host.Outcome State Fault Refusal :=
  .next (branch s (iccTest s.psr.icc 15#4) false a disp)

/-! ### FBfcc -/

/-- fbn (42_control_transfer.md R516). -/
def execFbn (a : Bool) (disp : BitVec 22) (s : State) : Host.Outcome State Fault Refusal :=
  (fbfcc s 0#4 false a disp).out

/-- fbne (42_control_transfer.md R516). -/
def execFbne (a : Bool) (disp : BitVec 22) (s : State) : Host.Outcome State Fault Refusal :=
  (fbfcc s 1#4 false a disp).out

/-- fblg (42_control_transfer.md R516). -/
def execFblg (a : Bool) (disp : BitVec 22) (s : State) : Host.Outcome State Fault Refusal :=
  (fbfcc s 2#4 false a disp).out

/-- fbul (42_control_transfer.md R516). -/
def execFbul (a : Bool) (disp : BitVec 22) (s : State) : Host.Outcome State Fault Refusal :=
  (fbfcc s 3#4 false a disp).out

/-- fbl (42_control_transfer.md R516). -/
def execFbl (a : Bool) (disp : BitVec 22) (s : State) : Host.Outcome State Fault Refusal :=
  (fbfcc s 4#4 false a disp).out

/-- fbug (42_control_transfer.md R516). -/
def execFbug (a : Bool) (disp : BitVec 22) (s : State) : Host.Outcome State Fault Refusal :=
  (fbfcc s 5#4 false a disp).out

/-- fbg (42_control_transfer.md R516). -/
def execFbg (a : Bool) (disp : BitVec 22) (s : State) : Host.Outcome State Fault Refusal :=
  (fbfcc s 6#4 false a disp).out

/-- fbu (42_control_transfer.md R516). -/
def execFbu (a : Bool) (disp : BitVec 22) (s : State) : Host.Outcome State Fault Refusal :=
  (fbfcc s 7#4 false a disp).out

/-- fba (42_control_transfer.md R516). -/
def execFba (a : Bool) (disp : BitVec 22) (s : State) : Host.Outcome State Fault Refusal :=
  (fbfcc s 8#4 true a disp).out

/-- fbe (42_control_transfer.md R516). -/
def execFbe (a : Bool) (disp : BitVec 22) (s : State) : Host.Outcome State Fault Refusal :=
  (fbfcc s 9#4 false a disp).out

/-- fbue (42_control_transfer.md R516). -/
def execFbue (a : Bool) (disp : BitVec 22) (s : State) : Host.Outcome State Fault Refusal :=
  (fbfcc s 10#4 false a disp).out

/-- fbge (42_control_transfer.md R516). -/
def execFbge (a : Bool) (disp : BitVec 22) (s : State) : Host.Outcome State Fault Refusal :=
  (fbfcc s 11#4 false a disp).out

/-- fbuge (42_control_transfer.md R516). -/
def execFbuge (a : Bool) (disp : BitVec 22) (s : State) : Host.Outcome State Fault Refusal :=
  (fbfcc s 12#4 false a disp).out

/-- fble (42_control_transfer.md R516). -/
def execFble (a : Bool) (disp : BitVec 22) (s : State) : Host.Outcome State Fault Refusal :=
  (fbfcc s 13#4 false a disp).out

/-- fbule (42_control_transfer.md R516). -/
def execFbule (a : Bool) (disp : BitVec 22) (s : State) : Host.Outcome State Fault Refusal :=
  (fbfcc s 14#4 false a disp).out

/-- fbo (42_control_transfer.md R516). -/
def execFbo (a : Bool) (disp : BitVec 22) (s : State) : Host.Outcome State Fault Refusal :=
  (fbfcc s 15#4 false a disp).out

/-! ### CBccc -/

/-- cbn (42_control_transfer.md R521). -/
def execCbn (a : Bool) (disp : BitVec 22) (s : State) : Host.Outcome State Fault Refusal :=
  (cbccc s 0#4 false a disp).out

/-- cb123 (42_control_transfer.md R521). -/
def execCb123 (a : Bool) (disp : BitVec 22) (s : State) : Host.Outcome State Fault Refusal :=
  (cbccc s 1#4 false a disp).out

/-- cb12 (42_control_transfer.md R521). -/
def execCb12 (a : Bool) (disp : BitVec 22) (s : State) : Host.Outcome State Fault Refusal :=
  (cbccc s 2#4 false a disp).out

/-- cb13 (42_control_transfer.md R521). -/
def execCb13 (a : Bool) (disp : BitVec 22) (s : State) : Host.Outcome State Fault Refusal :=
  (cbccc s 3#4 false a disp).out

/-- cb1 (42_control_transfer.md R521). -/
def execCb1 (a : Bool) (disp : BitVec 22) (s : State) : Host.Outcome State Fault Refusal :=
  (cbccc s 4#4 false a disp).out

/-- cb23 (42_control_transfer.md R521). -/
def execCb23 (a : Bool) (disp : BitVec 22) (s : State) : Host.Outcome State Fault Refusal :=
  (cbccc s 5#4 false a disp).out

/-- cb2 (42_control_transfer.md R521). -/
def execCb2 (a : Bool) (disp : BitVec 22) (s : State) : Host.Outcome State Fault Refusal :=
  (cbccc s 6#4 false a disp).out

/-- cb3 (42_control_transfer.md R521). -/
def execCb3 (a : Bool) (disp : BitVec 22) (s : State) : Host.Outcome State Fault Refusal :=
  (cbccc s 7#4 false a disp).out

/-- cba (42_control_transfer.md R521). -/
def execCba (a : Bool) (disp : BitVec 22) (s : State) : Host.Outcome State Fault Refusal :=
  (cbccc s 8#4 true a disp).out

/-- cb0 (42_control_transfer.md R521). -/
def execCb0 (a : Bool) (disp : BitVec 22) (s : State) : Host.Outcome State Fault Refusal :=
  (cbccc s 9#4 false a disp).out

/-- cb03 (42_control_transfer.md R521). -/
def execCb03 (a : Bool) (disp : BitVec 22) (s : State) : Host.Outcome State Fault Refusal :=
  (cbccc s 10#4 false a disp).out

/-- cb02 (42_control_transfer.md R521). -/
def execCb02 (a : Bool) (disp : BitVec 22) (s : State) : Host.Outcome State Fault Refusal :=
  (cbccc s 11#4 false a disp).out

/-- cb023 (42_control_transfer.md R521). -/
def execCb023 (a : Bool) (disp : BitVec 22) (s : State) : Host.Outcome State Fault Refusal :=
  (cbccc s 12#4 false a disp).out

/-- cb01 (42_control_transfer.md R521). -/
def execCb01 (a : Bool) (disp : BitVec 22) (s : State) : Host.Outcome State Fault Refusal :=
  (cbccc s 13#4 false a disp).out

/-- cb013 (42_control_transfer.md R521). -/
def execCb013 (a : Bool) (disp : BitVec 22) (s : State) : Host.Outcome State Fault Refusal :=
  (cbccc s 14#4 false a disp).out

/-- cb012 (42_control_transfer.md R521). -/
def execCb012 (a : Bool) (disp : BitVec 22) (s : State) : Host.Outcome State Fault Refusal :=
  (cbccc s 15#4 false a disp).out

end Sys2Proof.Machine
end

