-- ==== Sys2Proof/Machine/Control.lean ====
section
/-! DEFINITION. SAVE, RESTORE, CALL, JMPL, RETT and Ticc (42_control_transfer.md R525 to R546). -/

namespace Sys2Proof.Machine

/-- SAVE (42_control_transfer.md R525): operands from the old window, destination in the new one. -/
def execSave (rd rs1 : RegNum) (o : Operand2) (s : State) : Host.Outcome State Fault Refusal :=
  let cwp := cwpBelow s.cfg s.psr.cwp
  let result := reg s rs1 + operand2 s o
  (if windowInvalid s cwp then Res.trap .windowOverflow s
  else .done (advance (setReg { s with psr := { s.psr with cwp := cwp } } rd result))).out

/-- RESTORE (42_control_transfer.md R526). -/
def execRestore (rd rs1 : RegNum) (o : Operand2) (s : State) : Host.Outcome State Fault Refusal :=
  let cwp := cwpAbove s.cfg s.psr.cwp
  let result := reg s rs1 + operand2 s o
  (if windowInvalid s cwp then Res.trap .windowUnderflow s
  else .done (advance (setReg { s with psr := { s.psr with cwp := cwp } } rd result))).out

/-- CALL (42_control_transfer.md R530). -/
def execCall (disp : BitVec 30) (s : State) : Host.Outcome State Fault Refusal :=
  .next { setReg s 15#5 s.pc with pc := s.npc, npc := callTarget s disp }

/-- JMPL (42_control_transfer.md R535). -/
def execJmpl (rd rs1 : RegNum) (o : Operand2) (s : State) : Host.Outcome State Fault Refusal :=
  let target := effectiveAddress s rs1 o
  (aligned s target .word (.done { setReg s rd s.pc with pc := s.npc, npc := target })).out

/-- RETT (42_control_transfer.md R540, R541): the return from a trap. -/
def execRett (rs1 : RegNum) (o : Operand2) (s : State) : Host.Outcome State Fault Refusal :=
  let cwp := cwpAbove s.cfg s.psr.cwp
  let target := effectiveAddress s rs1 o
  (if s.psr.et then privileged s (.trap .illegalInstruction s)
  else if !s.psr.s then .done (rettError .privilegedInstruction s)
  else if windowInvalid s cwp then .done (rettError .windowUnderflow s)
  else if target.extractLsb' 0 2 ≠ 0#2 then .done (rettError .memAddressNotAligned s)
  else
    .done
      { s with
        psr := { s.psr with et := true, cwp := cwp, s := s.psr.ps }
        pc := s.npc
        npc := target }).out

/-- Ticc: trap_instruction if the test holds, else a NOP (42_control_transfer.md R545). -/
def ticc (s : State) (taken : Bool) (rs1 : RegNum) (o : TrapOperand) : Res :=
  if taken then .trap (.trapInstruction (trapNumber s rs1 o)) s else .done (advance s)

/-- tn (42_control_transfer.md R545, R546). -/
def execTn (rs1 : RegNum) (o : TrapOperand) (s : State) : Host.Outcome State Fault Refusal :=
  (ticc s (iccTest s.psr.icc 0#4) rs1 o).out

/-- te (42_control_transfer.md R545, R546). -/
def execTe (rs1 : RegNum) (o : TrapOperand) (s : State) : Host.Outcome State Fault Refusal :=
  (ticc s (iccTest s.psr.icc 1#4) rs1 o).out

/-- tle (42_control_transfer.md R545, R546). -/
def execTle (rs1 : RegNum) (o : TrapOperand) (s : State) : Host.Outcome State Fault Refusal :=
  (ticc s (iccTest s.psr.icc 2#4) rs1 o).out

/-- tl (42_control_transfer.md R545, R546). -/
def execTl (rs1 : RegNum) (o : TrapOperand) (s : State) : Host.Outcome State Fault Refusal :=
  (ticc s (iccTest s.psr.icc 3#4) rs1 o).out

/-- tleu (42_control_transfer.md R545, R546). -/
def execTleu (rs1 : RegNum) (o : TrapOperand) (s : State) : Host.Outcome State Fault Refusal :=
  (ticc s (iccTest s.psr.icc 4#4) rs1 o).out

/-- tcs (42_control_transfer.md R545, R546). -/
def execTcs (rs1 : RegNum) (o : TrapOperand) (s : State) : Host.Outcome State Fault Refusal :=
  (ticc s (iccTest s.psr.icc 5#4) rs1 o).out

/-- tneg (42_control_transfer.md R545, R546). -/
def execTneg (rs1 : RegNum) (o : TrapOperand) (s : State) : Host.Outcome State Fault Refusal :=
  (ticc s (iccTest s.psr.icc 6#4) rs1 o).out

/-- tvs (42_control_transfer.md R545, R546). -/
def execTvs (rs1 : RegNum) (o : TrapOperand) (s : State) : Host.Outcome State Fault Refusal :=
  (ticc s (iccTest s.psr.icc 7#4) rs1 o).out

/-- ta (42_control_transfer.md R545, R546). -/
def execTa (rs1 : RegNum) (o : TrapOperand) (s : State) : Host.Outcome State Fault Refusal :=
  (ticc s (iccTest s.psr.icc 8#4) rs1 o).out

/-- tne (42_control_transfer.md R545, R546). -/
def execTne (rs1 : RegNum) (o : TrapOperand) (s : State) : Host.Outcome State Fault Refusal :=
  (ticc s (iccTest s.psr.icc 9#4) rs1 o).out

/-- tg (42_control_transfer.md R545, R546). -/
def execTg (rs1 : RegNum) (o : TrapOperand) (s : State) : Host.Outcome State Fault Refusal :=
  (ticc s (iccTest s.psr.icc 10#4) rs1 o).out

/-- tge (42_control_transfer.md R545, R546). -/
def execTge (rs1 : RegNum) (o : TrapOperand) (s : State) : Host.Outcome State Fault Refusal :=
  (ticc s (iccTest s.psr.icc 11#4) rs1 o).out

/-- tgu (42_control_transfer.md R545, R546). -/
def execTgu (rs1 : RegNum) (o : TrapOperand) (s : State) : Host.Outcome State Fault Refusal :=
  (ticc s (iccTest s.psr.icc 12#4) rs1 o).out

/-- tcc (42_control_transfer.md R545, R546). -/
def execTcc (rs1 : RegNum) (o : TrapOperand) (s : State) : Host.Outcome State Fault Refusal :=
  (ticc s (iccTest s.psr.icc 13#4) rs1 o).out

/-- tpos (42_control_transfer.md R545, R546). -/
def execTpos (rs1 : RegNum) (o : TrapOperand) (s : State) : Host.Outcome State Fault Refusal :=
  (ticc s (iccTest s.psr.icc 14#4) rs1 o).out

/-- tvc (42_control_transfer.md R545, R546). -/
def execTvc (rs1 : RegNum) (o : TrapOperand) (s : State) : Host.Outcome State Fault Refusal :=
  (ticc s (iccTest s.psr.icc 15#4) rs1 o).out

end Sys2Proof.Machine
end

