-- ==== Sys2Proof/Machine/Alu.lean ====
section
/-! DEFINITION. SETHI, NOP, the logical instructions, shifts, additions, subtractions and their tagged
forms (41_integer_alu.md R405 to R446). -/

namespace Sys2Proof.Machine

/-- r[rd] <- result and the next instruction (41_integer_alu.md R400). -/
def writeResult (s : State) (rd : RegNum) (result : Word) : State := advance (setReg s rd result)

/-- The same, with icc (41_integer_alu.md R400: icc is written even if rd = 0). -/
def writeResultCc (s : State) (rd : RegNum) (result : Word) (icc : Icc) : State :=
  advance (setReg { s with psr := { s.psr with icc := icc } } rd result)

/-- The carry as a number to add (41_integer_alu.md R432). -/
def carryWord (s : State) : Word := (BitVec.ofBool s.psr.icc.c).setWidth 32

/-- A logical instruction (41_integer_alu.md section 3). -/
def logical (s : State) (rd rs1 : RegNum) (o : Operand2) (f : Word → Word → Word) : State :=
  writeResult s rd (f (reg s rs1) (operand2 s o))

/-- A logical instruction that writes icc (41_integer_alu.md R401). -/
def logicalCc (s : State) (rd rs1 : RegNum) (o : Operand2) (f : Word → Word → Word) : State :=
  let result := f (reg s rs1) (operand2 s o)
  writeResultCc s rd result (iccLogic result)

/-- An addition with a carry in (41_integer_alu.md section 5). -/
def addition (s : State) (rd rs1 : RegNum) (o : Operand2) (carry : Word) : State :=
  writeResult s rd (reg s rs1 + operand2 s o + carry)

/-- An addition that writes icc (41_integer_alu.md R402). -/
def additionCc (s : State) (rd rs1 : RegNum) (o : Operand2) (carry : Word) : State :=
  let result := reg s rs1 + operand2 s o + carry
  writeResultCc s rd result (iccAdd (reg s rs1) (operand2 s o) result)

/-- A subtraction with a borrow in (41_integer_alu.md section 7). -/
def subtraction (s : State) (rd rs1 : RegNum) (o : Operand2) (borrow : Word) : State :=
  writeResult s rd (reg s rs1 - operand2 s o - borrow)

/-- A subtraction that writes icc (41_integer_alu.md R403). -/
def subtractionCc (s : State) (rd rs1 : RegNum) (o : Operand2) (borrow : Word) : State :=
  let result := reg s rs1 - operand2 s o - borrow
  writeResultCc s rd result (iccSub (reg s rs1) (operand2 s o) result)

/-- A tagged addition (41_integer_alu.md R435, R436): `trap` says whether a set temp_v is a tag_overflow
trap. -/
def taggedAddition (s : State) (rd rs1 : RegNum) (o : Operand2) (trap : Bool) : Res :=
  let a := reg s rs1
  let b := operand2 s o
  let icc := iccTaggedAdd a b (a + b)
  if trap && icc.v then .trap .tagOverflow s else .done (writeResultCc s rd (a + b) icc)

/-- A tagged subtraction (41_integer_alu.md R445, R446). -/
def taggedSubtraction (s : State) (rd rs1 : RegNum) (o : Operand2) (trap : Bool) : Res :=
  let a := reg s rs1
  let b := operand2 s o
  let icc := iccTaggedSub a b (a - b)
  if trap && icc.v then .trap .tagOverflow s else .done (writeResultCc s rd (a - b) icc)

/-! ### SETHI and NOP -/

/-- SETHI (41_integer_alu.md R405). -/
def execSethi (rd : RegNum) (imm : BitVec 22) (s : State) : Host.Outcome State Fault Refusal :=
  .next (writeResult s rd (imm ++ 0#10 : BitVec (22 + 10)))

/-- NOP (41_integer_alu.md R406). -/
def execNop (s : State) : Host.Outcome State Fault Refusal := .next (advance s)

/-! ### Logical -/

/-- AND (41_integer_alu.md R410). -/
def execAnd (rd rs1 : RegNum) (o : Operand2) (s : State) : Host.Outcome State Fault Refusal :=
  .next (logical s rd rs1 o (fun a b => a &&& b))

/-- ANDcc (41_integer_alu.md R411). -/
def execAndcc (rd rs1 : RegNum) (o : Operand2) (s : State) : Host.Outcome State Fault Refusal :=
  .next (logicalCc s rd rs1 o (fun a b => a &&& b))

/-- ANDN (41_integer_alu.md R412). -/
def execAndn (rd rs1 : RegNum) (o : Operand2) (s : State) : Host.Outcome State Fault Refusal :=
  .next (logical s rd rs1 o (fun a b => a &&& ~~~b))

/-- ANDNcc (41_integer_alu.md R413). -/
def execAndncc (rd rs1 : RegNum) (o : Operand2) (s : State) : Host.Outcome State Fault Refusal :=
  .next (logicalCc s rd rs1 o (fun a b => a &&& ~~~b))

/-- OR (41_integer_alu.md R414). -/
def execOr (rd rs1 : RegNum) (o : Operand2) (s : State) : Host.Outcome State Fault Refusal :=
  .next (logical s rd rs1 o (fun a b => a ||| b))

/-- ORcc (41_integer_alu.md R415). -/
def execOrcc (rd rs1 : RegNum) (o : Operand2) (s : State) : Host.Outcome State Fault Refusal :=
  .next (logicalCc s rd rs1 o (fun a b => a ||| b))

/-- ORN (41_integer_alu.md R416). -/
def execOrn (rd rs1 : RegNum) (o : Operand2) (s : State) : Host.Outcome State Fault Refusal :=
  .next (logical s rd rs1 o (fun a b => a ||| ~~~b))

/-- ORNcc (41_integer_alu.md R417). -/
def execOrncc (rd rs1 : RegNum) (o : Operand2) (s : State) : Host.Outcome State Fault Refusal :=
  .next (logicalCc s rd rs1 o (fun a b => a ||| ~~~b))

/-- XOR (41_integer_alu.md R418). -/
def execXor (rd rs1 : RegNum) (o : Operand2) (s : State) : Host.Outcome State Fault Refusal :=
  .next (logical s rd rs1 o (fun a b => a ^^^ b))

/-- XORcc (41_integer_alu.md R419). -/
def execXorcc (rd rs1 : RegNum) (o : Operand2) (s : State) : Host.Outcome State Fault Refusal :=
  .next (logicalCc s rd rs1 o (fun a b => a ^^^ b))

/-- XNOR (41_integer_alu.md R420). -/
def execXnor (rd rs1 : RegNum) (o : Operand2) (s : State) : Host.Outcome State Fault Refusal :=
  .next (logical s rd rs1 o (fun a b => a ^^^ ~~~b))

/-- XNORcc (41_integer_alu.md R421). -/
def execXnorcc (rd rs1 : RegNum) (o : Operand2) (s : State) : Host.Outcome State Fault Refusal :=
  .next (logicalCc s rd rs1 o (fun a b => a ^^^ ~~~b))

/-! ### Shifts -/

/-- SLL (41_integer_alu.md R425). -/
def execSll (rd rs1 : RegNum) (o : ShiftOperand) (s : State) : Host.Outcome State Fault Refusal :=
  .next (writeResult s rd (reg s rs1 <<< shiftCount s o))

/-- SRL (41_integer_alu.md R426). -/
def execSrl (rd rs1 : RegNum) (o : ShiftOperand) (s : State) : Host.Outcome State Fault Refusal :=
  .next (writeResult s rd (reg s rs1 >>> shiftCount s o))

/-- SRA (41_integer_alu.md R427). -/
def execSra (rd rs1 : RegNum) (o : ShiftOperand) (s : State) : Host.Outcome State Fault Refusal :=
  .next (writeResult s rd ((reg s rs1).sshiftRight (shiftCount s o)))

/-! ### Add and subtract -/

/-- ADD (41_integer_alu.md R430). -/
def execAdd (rd rs1 : RegNum) (o : Operand2) (s : State) : Host.Outcome State Fault Refusal :=
  .next (addition s rd rs1 o 0#32)

/-- ADDcc (41_integer_alu.md R431). -/
def execAddcc (rd rs1 : RegNum) (o : Operand2) (s : State) : Host.Outcome State Fault Refusal :=
  .next (additionCc s rd rs1 o 0#32)

/-- ADDX (41_integer_alu.md R432). -/
def execAddx (rd rs1 : RegNum) (o : Operand2) (s : State) : Host.Outcome State Fault Refusal :=
  .next (addition s rd rs1 o (carryWord s))

/-- ADDXcc (41_integer_alu.md R433). -/
def execAddxcc (rd rs1 : RegNum) (o : Operand2) (s : State) : Host.Outcome State Fault Refusal :=
  .next (additionCc s rd rs1 o (carryWord s))

/-- TADDcc (41_integer_alu.md R435). -/
def execTaddcc (rd rs1 : RegNum) (o : Operand2) (s : State) : Host.Outcome State Fault Refusal :=
  (taggedAddition s rd rs1 o false).out

/-- TADDccTV (41_integer_alu.md R436). -/
def execTaddcctv (rd rs1 : RegNum) (o : Operand2) (s : State) : Host.Outcome State Fault Refusal :=
  (taggedAddition s rd rs1 o true).out

/-- SUB (41_integer_alu.md R440). -/
def execSub (rd rs1 : RegNum) (o : Operand2) (s : State) : Host.Outcome State Fault Refusal :=
  .next (subtraction s rd rs1 o 0#32)

/-- SUBcc (41_integer_alu.md R441). -/
def execSubcc (rd rs1 : RegNum) (o : Operand2) (s : State) : Host.Outcome State Fault Refusal :=
  .next (subtractionCc s rd rs1 o 0#32)

/-- SUBX (41_integer_alu.md R442). -/
def execSubx (rd rs1 : RegNum) (o : Operand2) (s : State) : Host.Outcome State Fault Refusal :=
  .next (subtraction s rd rs1 o (carryWord s))

/-- SUBXcc (41_integer_alu.md R443). -/
def execSubxcc (rd rs1 : RegNum) (o : Operand2) (s : State) : Host.Outcome State Fault Refusal :=
  .next (subtractionCc s rd rs1 o (carryWord s))

/-- TSUBcc (41_integer_alu.md R445). -/
def execTsubcc (rd rs1 : RegNum) (o : Operand2) (s : State) : Host.Outcome State Fault Refusal :=
  (taggedSubtraction s rd rs1 o false).out

/-- TSUBccTV (41_integer_alu.md R446). -/
def execTsubcctv (rd rs1 : RegNum) (o : Operand2) (s : State) : Host.Outcome State Fault Refusal :=
  (taggedSubtraction s rd rs1 o true).out

end Sys2Proof.Machine
end

