-- ==== Sys2Proof/Machine/MulDiv.lean ====
section
/-! DEFINITION. MULScc, the multiplies and the divides (41_integer_alu.md R450 to R464). -/

namespace Sys2Proof.Machine

/-- The unsigned 64-bit product (41_integer_alu.md R455). -/
def unsignedProduct (a b : Word) : BitVec 64 := BitVec.ofNat 64 (a.toNat * b.toNat)

/-- The signed 64-bit product (41_integer_alu.md R456). -/
def signedProduct (a b : Word) : BitVec 64 := BitVec.ofInt 64 (a.toInt * b.toInt)

/-- Y <- the high word, r[rd] <- the low word (41_integer_alu.md R455). -/
def writeProduct (s : State) (rd : RegNum) (p : BitVec 64) : State :=
  writeResult { s with y := p.extractLsb' 32 32 } rd (p.extractLsb' 0 32)

/-- The same, with icc from the low word (41_integer_alu.md R457). -/
def writeProductCc (s : State) (rd : RegNum) (p : BitVec 64) : State :=
  writeResultCc { s with y := p.extractLsb' 32 32 } rd (p.extractLsb' 0 32)
    (iccLogic (p.extractLsb' 0 32))

/-- The 64-bit dividend Y || r[rs1] (41_integer_alu.md R460). -/
def dividend (s : State) (rs1 : RegNum) : BitVec 64 := (s.y ++ reg s rs1 : BitVec (32 + 32))

/-- The unsigned quotient clamped to 32 bits, and temp_V (41_integer_alu.md R461). -/
def unsignedQuotient (n : BitVec 64) (d : Word) : Word × Bool :=
  let q := n.toNat / d.toNat
  if q < 2 ^ 32 then (BitVec.ofNat 32 q, false) else (0xFFFFFFFF#32, true)

/-- The signed quotient, rounded toward zero and clamped to 32 bits, and temp_V by the overflow
detection of the implementation (41_integer_alu.md R462): method B also counts a quotient of -2^31 with
a remainder. DEDUCED: the quotient of -2^63 by -1, which no signed 64-bit temporary holds, is the
mathematical 2^63, so the result is the positive clamp with overflow (log 30). -/
def signedQuotient (methodB : Bool) (n : BitVec 64) (d : Word) : Word × Bool :=
  let q := n.toInt.tdiv d.toInt
  if q < -(2 ^ 31) then (0x80000000#32, true)
  else if 2 ^ 31 ≤ q then (0x7FFFFFFF#32, true)
  else (BitVec.ofInt 32 q, methodB && q == -(2 ^ 31) && n.toInt.tmod d.toInt != 0)

/-- Raise division_by_zero for a divisor of 0, else go on (41_integer_alu.md R460). -/
def nonzeroDivisor (s : State) (d : Word) (k : Res) : Res :=
  if d = 0#32 then .trap .divisionByZero s else k

/-- MULScc (41_integer_alu.md R450); every right-hand side uses the values before the instruction. -/
def execMulscc (rd rs1 : RegNum) (o : Operand2) (s : State) : Host.Outcome State Fault Refusal :=
  let a := reg s rs1
  let op1 : Word :=
    (BitVec.ofBool (s.psr.icc.n ^^ s.psr.icc.v) ++ a.extractLsb' 1 31 : BitVec (1 + 31))
  let op2 := if s.y.getLsbD 0 then operand2 s o else 0#32
  let result := op1 + op2
  let y : Word := (a.extractLsb' 0 1 ++ s.y.extractLsb' 1 31 : BitVec (1 + 31))
  .next (writeResultCc { s with y := y } rd result (iccAdd op1 op2 result))

/-- UMUL (41_integer_alu.md R455). -/
def execUmul (rd rs1 : RegNum) (o : Operand2) (s : State) : Host.Outcome State Fault Refusal :=
  .next (writeProduct s rd (unsignedProduct (reg s rs1) (operand2 s o)))

/-- SMUL (41_integer_alu.md R456). -/
def execSmul (rd rs1 : RegNum) (o : Operand2) (s : State) : Host.Outcome State Fault Refusal :=
  .next (writeProduct s rd (signedProduct (reg s rs1) (operand2 s o)))

/-- UMULcc (41_integer_alu.md R457). -/
def execUmulcc (rd rs1 : RegNum) (o : Operand2) (s : State) : Host.Outcome State Fault Refusal :=
  .next (writeProductCc s rd (unsignedProduct (reg s rs1) (operand2 s o)))

/-- SMULcc (41_integer_alu.md R458). -/
def execSmulcc (rd rs1 : RegNum) (o : Operand2) (s : State) : Host.Outcome State Fault Refusal :=
  .next (writeProductCc s rd (signedProduct (reg s rs1) (operand2 s o)))

/-- UDIV (41_integer_alu.md R461). -/
def execUdiv (rd rs1 : RegNum) (o : Operand2) (s : State) : Host.Outcome State Fault Refusal :=
  (nonzeroDivisor s (operand2 s o)
    (.done (writeResult s rd (unsignedQuotient (dividend s rs1) (operand2 s o)).1))).out

/-- SDIV (41_integer_alu.md R462). -/
def execSdiv (rd rs1 : RegNum) (o : Operand2) (s : State) : Host.Outcome State Fault Refusal :=
  (nonzeroDivisor s (operand2 s o)
    (.done
      (writeResult s rd (signedQuotient s.cfg.sdivMethodB (dividend s rs1) (operand2 s o)).1))).out

/-- UDIVcc (41_integer_alu.md R463). -/
def execUdivcc (rd rs1 : RegNum) (o : Operand2) (s : State) : Host.Outcome State Fault Refusal :=
  let q := unsignedQuotient (dividend s rs1) (operand2 s o)
  (nonzeroDivisor s (operand2 s o) (.done (writeResultCc s rd q.1 (iccDivide q.1 q.2)))).out

/-- SDIVcc (41_integer_alu.md R464). -/
def execSdivcc (rd rs1 : RegNum) (o : Operand2) (s : State) : Host.Outcome State Fault Refusal :=
  let q := signedQuotient s.cfg.sdivMethodB (dividend s rs1) (operand2 s o)
  (nonzeroDivisor s (operand2 s o) (.done (writeResultCc s rd q.1 (iccDivide q.1 q.2)))).out

end Sys2Proof.Machine
end

