-- ==== Sys2Proof/Machine/Step.lean ====
section
/-! DEFINITION. One step: the cycle up to the execution of an instruction, then its meaning
(70_reset_and_hazards.md R810). -/

namespace Sys2Proof.Machine

/-- One step (70_reset_and_hazards.md R810). -/
def step (s : State) : Host.Outcome State Fault Refusal :=
  match prepare s with
  | .ended o => o
  | .run i s => exec i s

/-- The state with an instruction placed where the next step fetches (log 4). -/
def State.withFetchWord (s : State) (_nbits w : Nat) : State :=
  let s := readyToFetch s
  let pa := nextFetchPa s
  { s with
    mem := s.mem.write32 pa (BitVec.ofNat 32 w)
    staleWords := s.staleWords.filter (fun x => x.pa != pa) }

end Sys2Proof.Machine
end

