-- ==== Sys2Proof/Safety.lean ====
section
/-! DEFINITION. What counts as a safe run, in the terms statements use: the invariant of a state, and
the predicates of the hazards software must respect (70_reset_and_hazards.md section 4). -/

namespace Sys2Proof.Machine

/-! ### The invariant -/

/-- PC and nPC are word-aligned (10_state.md R30). -/
def PcAligned (s : State) : Prop := s.pc.extractLsb' 0 2 = 0#2 ∧ s.npc.extractLsb' 0 2 = 0#2

/-- CWP names a window that exists, now and after every delayed WRPSR (10_state.md R43,
43_state_regs_misc.md R573). -/
def WindowExists (s : State) : Prop :=
  s.psr.cwp.toNat < s.cfg.nwindows ∧
    ∀ p ∈ s.pending, p.reg = .psr → (p.value.extractLsb' 0 5).toNat < s.cfg.nwindows

/-- The WIM bits of windows that do not exist are zero (10_state.md R44). -/
def WimImplemented (s : State) : Prop := s.wim &&& wimMask s.cfg = s.wim

/-- Without a floating-point queue the queue is empty, the FPU works on no FPop behind the IU's back, and
nothing is deferred (10_state.md R75). -/
def NoQueueNoDeferral (s : State) : Prop :=
  s.cfg.fqPresent = false → s.fq = [] ∧ s.fpuQueue = [] ∧ s.fpuMode = .execute

/-! ### Hazards -/

/-- The r registers an instruction's fields name (43_state_regs_misc.md R575 (2)). Among 0x30 to 0x3B, the
WRxxx, FPops, CPops, RETT, Ticc and FLUSH, JMPL alone has one in rd. -/
def namedRegs (i : Instr) : List RegNum :=
  match encodeFormat i with
  | .call _ => [15#5]
  | .fmt2 top op2 _ => if op2 = 4#3 then [top.extractLsb' 0 5] else []
  | .fmt3 mem rd op3 rs1 low =>
    let second := if low.getLsbD 13 then [] else [low.extractLsb' 0 5]
    if mem then (if op3.toNat < 0x20 then [rd] else []) ++ rs1 :: second
    else
      match op3.toNat with
      | 0x28 => [rd]
      | 0x29 => [rd]
      | 0x2A => [rd]
      | 0x2B => [rd]
      | 0x34 => []
      | 0x35 => []
      | 0x36 => []
      | 0x37 => []
      | n => (if 0x30 ≤ n ∧ n ≤ 0x3B ∧ n ≠ 0x38 then [] else [rd]) ++ rs1 :: second

/-- The fields an arithmetic format 3 instruction reads by its op3 (43_state_regs_misc.md R575 (2);
41_integer_alu.md R471). -/
def arithReads (op3 : BitVec 6) (rs1 : RegNum) : List StateField :=
  match op3.toNat with
  | 0x08 => [.icc]
  | 0x0C => [.icc]
  | 0x18 => [.icc]
  | 0x1C => [.icc]
  | 0x0E => [.y]
  | 0x0F => [.y]
  | 0x1E => [.y]
  | 0x1F => [.y]
  | 0x24 => [.icc, .y]
  | 0x28 =>
    if rs1 = 0#5 then [.y] else if 16 ≤ rs1.toNat then [.asr (Fin.ofNat 16 (rs1.toNat - 16))] else []
  | 0x29 => [.icc, .ec, .ef, .pil, .s, .ps, .et, .cwp]
  | 0x2A => [.wim]
  | 0x2B => [.tba]
  | 0x39 => [.cwp, .wim, .ps, .et]
  | 0x3A => [.icc, .cwp]
  | 0x3C => [.cwp, .wim]
  | 0x3D => [.cwp, .wim]
  | _ => []

/-- The fields an arithmetic format 3 instruction writes by its op3, of another write state register
instruction none (43_state_regs_misc.md R575 (1); 41_integer_alu.md R471). -/
def arithWrites (op3 : BitVec 6) : List StateField :=
  match op3.toNat with
  | 0x0A => [.y]
  | 0x0B => [.y]
  | 0x1A => [.icc, .y]
  | 0x1B => [.icc, .y]
  | 0x24 => [.icc, .y]
  | 0x39 => [.cwp, .s, .et]
  | 0x3C => [.cwp]
  | 0x3D => [.cwp]
  | n => if 0x10 ≤ n ∧ n ≤ 0x23 ∧ n ≠ 0x19 ∧ n ≠ 0x1D then [.icc] else []

/-- The fields an instruction reads, explicitly or implicitly, by the lists of R575: CWP if it names a windowed
register, icc, EF and EC where it tests them, S where a load or store selects its address space or an
instruction is privileged. -/
def readFields (c : Config) (i : Instr) : List StateField :=
  (if (namedRegs i).any (fun n => decide (8 ≤ n.toNat)) then [.cwp] else [])
    ++ (if usesFpu i then [.ef] else []) ++ (if usesCp i then [.ec] else [])
    ++ (if isPrivileged c i then [.s] else [])
    ++ (match encodeFormat i with
      | .fmt2 _ op2 _ => if op2 = 2#3 then [.icc] else []
      | .fmt3 true _ _ _ _ => [.s]
      | .fmt3 false _ op3 rs1 _ => arithReads op3 rs1
      | .call _ => [])

/-- The fields an instruction writes on its own. -/
def writtenFields (i : Instr) : List StateField :=
  match encodeFormat i with
  | .fmt3 false _ op3 _ _ => arithWrites op3
  | _ => []

/-- The register a field belongs to. -/
def fieldReg : StateField → StateReg
  | .y => .y
  | .wim => .wim
  | .tba => .tbr
  | .asr n => .asr n
  | _ => .psr

/-- wr_hazard, of an instruction and the state it is executed in: within three instructions behind a WRxxx it
reads a field the WRxxx changed, or writes any field of its register (70_reset_and_hazards.md R820,
43_state_regs_misc.md R575 (1), (2)). What the model does then is not to be relied on. DESIGN
CHOICE: of the traps Ticc alone, taken or not, is taken for a reader of CWP; an instruction that takes another
trap is not in the hazard for what trap entry reads and writes, CWP, S and TBA, since the delayed writes commit
before it (log 6). -/
def wrHazard (s : State) (i : Instr) : Bool :=
  s.recentWrites.any fun x =>
    x.changed.any (fun f => (readFields s.cfg i).contains f)
      || (writtenFields i).any (fun f => fieldReg f == x.reg)

/-- Is an instruction an FBfcc. -/
def isFbfcc (i : Instr) : Bool :=
  match encodeFormat i with
  | .fmt2 _ op2 _ => op2 == 6#3
  | _ => false

/-- fcc_hazard: an FBfcc in the window behind an FPop2 or LDFSR (70_reset_and_hazards.md R825, R826;
log 11). -/
def fccHazard (s : State) (i : Instr) : Bool := isFbfcc i && decide (0 < s.fccWindow)

/-- No step of a run from `s` ends in a refusal or a fault within `k` steps. -/
def RunsSafely : Nat → State → Prop
  | 0, _ => True
  | k + 1, s => ∃ t, step s = .next t ∧ RunsSafely k t

/-! ### The terms of the statements: what a next state holds, and what it keeps -/

/-- The outcome is a next state with a property. -/
def Completes (o : Host.Outcome State Fault Refusal) (P : State → Prop) : Prop :=
  ∃ t, o = .next t ∧ P t

/-- The outcome is the state in which the trap was taken from `s`. -/
def Traps (o : Host.Outcome State Fault Refusal) (t : Trap) (s : State) : Prop :=
  o = .next (takeTrap t s)

/-- Every byte of memory reads as before. -/
def MemoryKept (s t : State) : Prop := ∀ a, t.mem.read8 a = s.mem.read8 a

/-- The bytes stand at the address and those after it, and every other byte of memory reads as before. -/
def StoresBytes (s t : State) (pa : Nat) (xs : List Byte) : Prop :=
  (∀ k (h : k < xs.length), t.mem.read8 (pa + k) = xs[k]) ∧
    ∀ a, a < pa ∨ pa + xs.length ≤ a → t.mem.read8 a = s.mem.read8 a

/-- The copies of replaced words that a store of `n` words leaves in the instruction buffer, behind those that
are there: with IBUF_MODEL = stale_allowed one for each word that is stored, with the virtual address of its
store, its place in memory and the word that stood there before, the words stored earlier among that; else none
(20_memory.md R139 to R142; log 27). -/
def CopiesKept (s t : State) (va : Word) (pa n : Nat) (stored : Nat → Bool) : Prop :=
  let before (k a : Nat) : Byte := if a < pa + 4 * k then t.mem.read8 a else s.mem.read8 a
  let copy (k : Nat) : StaleWord :=
    let place := (pa + 4 * k) / 4 * 4
    { va := va + BitVec.ofNat 32 (4 * k), pa := place
      old := wordOfBytes (before k place) (before k (place + 1)) (before k (place + 2)) (before k (place + 3))
      flushIn := none }
  t.staleWords = s.staleWords ++ if s.cfg.ibufStale then ((List.range n).filter stored).map copy else []

/-- Each listed r register of window `cwp` holds its value (r[0] is none, 10_state.md R24); every other
global and every other windowed register of every window is as before. -/
def RegsWritten (s t : State) (cwp : BitVec 5) (xs : List (RegNum × Word)) : Prop :=
  (∀ x ∈ xs, x.1 ≠ 0#5 → regIn t cwp x.1 = x.2) ∧
    (∀ n : RegNum, n.toNat < 8 → (∀ x ∈ xs, n ≠ x.1) → regIn t cwp n = regIn s cwp n) ∧
      ∀ k : Fin 512, (∀ x ∈ xs, x.1.toNat < 8 ∨ k ≠ windowIndex s.cfg cwp x.1) →
        t.windowed[k] = s.windowed[k]

/-- Each listed f register holds its value and every other one is as before. -/
def FregsWritten (s t : State) (xs : List (RegNum × Word)) : Prop :=
  (∀ x ∈ xs, freg t x.1 = x.2) ∧ ∀ n : RegNum, (∀ x ∈ xs, n ≠ x.1) → freg t n = freg s n

/-- The instruction completes: it writes the listed r registers of the current window, icc and Y as
given, goes on to the next instruction and changes nothing else. -/
def WritesRegs (o : Host.Outcome State Fault Refusal) (s : State) (xs : List (RegNum × Word))
    (icc : Icc) (y : Word) : Prop :=
  Completes o fun t =>
    RegsWritten s t s.psr.cwp xs ∧ MemoryKept s t ∧
      t = { s with
        pc := s.npc, npc := s.npc + 4#32, globals := t.globals, windowed := t.windowed
        psr := { s.psr with icc := icc }, y := y }

/-- The instruction completes: it writes one r register, and icc, and changes nothing else. -/
def WritesReg (o : Host.Outcome State Fault Refusal) (s : State) (rd : RegNum) (v : Word) (icc : Icc) :
    Prop := WritesRegs o s [(rd, v)] icc s.y

/-- The instruction completes: it stores the bytes by a virtual address at a physical one, writes the listed r
registers, goes on to the next instruction, changes `s` to `u` besides, and changes nothing else but the pending
STBAR, which a store carries out (20_memory.md R135), and, with IBUF_MODEL = stale_allowed, the instruction
buffer's copies. -/
def StoresAnd (o : Host.Outcome State Fault Refusal) (s u : State) (va : Word) (pa : Nat) (bytes : List Byte)
    (xs : List (RegNum × Word)) : Prop :=
  Completes o fun t =>
    StoresBytes s t pa bytes ∧ RegsWritten s t s.psr.cwp xs ∧
      CopiesKept s t va pa ((bytes.length + 3) / 4) (fun _ => true) ∧
        t = { u with
          pc := s.npc, npc := s.npc + 4#32, globals := t.globals, windowed := t.windowed
          mem := t.mem, storeBarrierPending := false, staleWords := t.staleWords }

/-- The same with no change besides. -/
def Stores (o : Host.Outcome State Fault Refusal) (s : State) (va : Word) (pa : Nat) (bytes : List Byte)
    (xs : List (RegNum × Word)) : Prop := StoresAnd o s s va pa bytes xs

/-- A branch completes: nPC takes the target PC + 4 * disp22 or goes on, the delay instruction is annulled
if `annuls`, and nothing else changes. -/
def Branches (o : Host.Outcome State Fault Refusal) (s : State) (taken annuls : Bool)
    (disp : BitVec 22) : Prop :=
  Completes o fun t =>
    MemoryKept s t ∧
      t = { s with
        pc := s.npc
        npc := if taken then s.pc + 4#32 * disp.signExtend 32 else s.npc + 4#32
        annul := s.annul || annuls }

/-- An FPop completes: it writes the listed f registers, fcc as given, cexc <- texc, aexc <- aexc or texc,
ftt <- 0 (44_fpop.md R604, R606), goes on to the next instruction and changes nothing else; `window` is
the fcc hazard's count. -/
def FpCompletes (o : Host.Outcome State Fault Refusal) (s : State) (xs : List (RegNum × Word))
    (texc : BitVec 5) (fcc : BitVec 2) (window : Nat) : Prop :=
  Completes o fun t =>
    FregsWritten s t xs ∧ MemoryKept s t ∧
      t = { s with
        pc := s.npc, npc := s.npc + 4#32, fregs := t.fregs
        fsr :=
          { s.fsr with fcc := fcc, cexc := texc, aexc := s.fsr.aexc ||| texc, ftt := 0#3 }
        fccWindow := window }

/-- The FPU is present, enabled and executing. -/
def FpuReady (s : State) : Prop := efOn s = true ∧ s.fpuMode = .execute

/-- The FPU works on no FPop that the instruction depends on. -/
def Independent (s : State) (depends : FpWork → Bool) : Prop := ∀ w ∈ s.fpuQueue, depends w = false

/-- The registers of a result in a format, most significant word first (10_state.md R51, 44_fpop.md R602),
with the words they take. -/
def fpWords (f : FpFormat) (rd : RegNum) (bits : Nat) : List (RegNum × Word) :=
  match f with
  | .single => [(rd, BitVec.ofNat 32 bits)]
  | .double => [(evenReg rd, BitVec.ofNat 32 (bits / 2 ^ 32)), (oddReg rd, BitVec.ofNat 32 bits)]
  | .quad =>
    [(quadReg rd 0#5, BitVec.ofNat 32 (bits / 2 ^ 96)),
      (quadReg rd 1#5, BitVec.ofNat 32 (bits / 2 ^ 64)),
      (quadReg rd 2#5, BitVec.ofNat 32 (bits / 2 ^ 32)), (quadReg rd 3#5, BitVec.ofNat 32 bits)]

/-- The register numbers of an FPop's operands are aligned, or the FPU ignores their low bits
(44_fpop.md R602). -/
def FregsAligned (s : State) (xs : List (FpFormat × RegNum)) : Prop :=
  s.cfg.misalignedFregTraps = false ∨ ∀ x ∈ xs, misaligned x.1 x.2 = false

/-- The bits of an operand in a format, most significant word first (10_state.md R51, 44_fpop.md R602). -/
def fpOperand (s : State) (f : FpFormat) (n : RegNum) : Nat :=
  match f with
  | .single => (freg s n).toNat
  | .double => (freg s (evenReg n)).toNat * 2 ^ 32 + (freg s (oddReg n)).toNat
  | .quad =>
    (freg s (quadReg n 0#5)).toNat * 2 ^ 96 + (freg s (quadReg n 1#5)).toNat * 2 ^ 64
      + (freg s (quadReg n 2#5)).toNat * 2 ^ 32 + (freg s (quadReg n 3#5)).toNat

/-- What executing an FPop's work in `s` comes to (44_fpop.md R602, R604): a misaligned register number is
invalid_fp_register (6); else what the FPU does of its own is unfinished_FPop (2) or hardware_error (5); else
an enabled exception is an IEEE_754_exception (1) with the highest enabled one in cexc; else it completes.
`texc` are the raised exceptions, `event` what the FPU does of its own. -/
def FpCases (s : State) (event : Option FpuEvent) (operands : List (FpFormat × RegNum)) (texc : BitVec 5)
    (raises : BitVec 3 → Option (BitVec 5) → Prop) (completes : Prop) : Prop :=
  (¬FregsAligned s operands → raises 6#3 none) ∧
    (FregsAligned s operands →
      (event = some .unfinished → raises 2#3 none) ∧
        (event = some .hardwareError → raises 5#3 none) ∧
          (event = none →
            (texc &&& s.fsr.tem ≠ 0#5 → raises 1#3 (some (highestBit (texc &&& s.fsr.tem)))) ∧
              (texc &&& s.fsr.tem = 0#5 → completes)))

/-- Do results of arithmetic FPops come from the implementation and not from the standard (10_state.md R59;
log 36). -/
def NonstandardMode (s : State) : Prop := s.fsr.ns = true ∧ s.cfg.nsBehaviour = .implementationDefined

/-- With a queue the FPU takes an FPop on behind those it works on, the front ones ended first if there is no
place, and the IU goes on; an exception of those is taken instead (10_state.md R75, R76; 60_exceptions.md R755;
log 14). The FPU notes whether it implements the FPop (44_fpop.md R603; log 37). `window` is the fcc hazard's
count. -/
def FpTakenOn (o : Host.Outcome State Fault Refusal) (s : State) (op : FpOp) (rd rs1 rs2 : RegNum)
    (window : Nat) : Prop :=
  let u := fpEndWork (s.fpuQueue.length + 1 - s.cfg.fqDepth) s
  (u.fpuMode = .execute →
    o = .next { u with
      pc := s.npc, npc := s.npc + 4#32, fccWindow := window
      fpuQueue :=
        u.fpuQueue
          ++ [⟨op, rd, rs1, rs2, !unimplemented s.cfg s.instruction, ⟨s.pc, s.instruction⟩⟩] }) ∧
    ∀ r, u.fpuMode = .pending r → Traps o (.fpException r) u

/-- What an FPop that the ready FPU accepts comes to: without a queue, unimplemented_FPop (3) if the FPU does
not implement it, else its execution (`FpCases`), its result and exceptions the standard's `bits` and `texc`, or
the implementation's in nonstandard mode; with a queue it is taken on. `result` gives the registers and fcc that
the bits of the result take. -/
def FpOutcome (o : Host.Outcome State Fault Refusal) (s : State) (op : FpOp) (rd rs1 rs2 : RegNum)
    (operands : List (FpFormat × RegNum)) (a b : Nat) (standard : Nat × BitVec 5)
    (result : Nat → List (RegNum × Word) × BitVec 2) (window : Nat) : Prop :=
  (s.cfg.fqPresent = true → FpTakenOn o s op rd rs1 rs2 window) ∧
    (s.cfg.fqPresent = false →
      let outcome (x : Nat × BitVec 5) : Prop :=
        FpCases s s.now.fpu operands x.2 (fun ftt cexc => Traps o (.fpException ⟨ftt, cexc⟩) s)
          (FpCompletes o s (result x.1).1 x.2 (result x.1).2 window)
      (unimplemented s.cfg s.instruction = true → Traps o (.fpException ⟨3#3, none⟩) s) ∧
        (unimplemented s.cfg s.instruction = false →
          (¬NonstandardMode s → outcome standard) ∧
            (NonstandardMode s → outcome (Config.nonstandardResult s.instruction a b))))

/-- The physical address of an access that is not translated: the virtual address in the four
architectural spaces, with the upper bits of the ASI in a space of physical memory (20_memory.md R118;
21_reference_mmu.md R224). -/
def plainPa (s : State) (asi : BitVec 8) (address : Word) : Option Nat :=
  match asiKind s.cfg asi with
  | .normal => if translating s then none else some address.toNat
  | .physical upper _ => some (upper ++ address : BitVec (4 + 32)).toNat
  | _ => none

/-- Where an access takes place that raises nothing: at a physical address of real memory, of read-only memory
or of an I/O location, or at an address of a device's space; or under a suppressed fault of the MMU, at the
physical address if the translation knows it (20_memory.md R119, R120; 21_reference_mmu.md R182). -/
inductive Place where
  | memory (pa : Nat)
  | readOnly (pa : Nat)
  | io (pa : Nat)
  | suppressed (pa : Option Nat)
  deriving DecidableEq, Repr

/-- The place at a physical address by what stands there, if anything does. -/
def Place.standing (kind : RegionKind) (pa : Nat) : Option Place :=
  match kind with
  | .realMemory => some (.memory pa)
  | .rom => some (.readOnly pa)
  | .io => some (.io pa)
  | .unmapped => none

/-- The place of a doubleword's second word. -/
def Place.next : Place → Place
  | .memory pa => .memory (pa + 4)
  | .readOnly pa => .readOnly (pa + 4)
  | .io pa => .io (pa + 4)
  | .suppressed pa => .suppressed (pa.map (· + 4))

/-- What stands at a physical address is the place, and for a doubleword what stands four bytes on the next. -/
def Stands (place : Place) (size : Size) (kind : Nat → RegionKind) (pa : Nat) : Prop :=
  Place.standing (kind pa) pa = some place ∧
    (size = .dword → Place.standing (kind (pa + 4)) (pa + 4) = some place.next)

/-- An aligned access that is not translated takes place here, with no machine check presented. -/
def PlainAt (s : State) (place : Place) (asi : BitVec 8) (address : Word) (size : Size) : Prop :=
  s.now.machineCheck = none ∧ address.toNat % size.alignment = 0 ∧
    (asiKind s.cfg asi = .device ∧ place = .io address.toNat ∨
      ∃ pa, plainPa s asi address = some pa ∧
        Stands place size (regionKind s.cfg (decodedAsi s.cfg asi)) pa)

/-- An aligned access to an architectural address space whose translation `o` leaves `t` takes place here, with
no machine check presented: where it is translated to, or, if the translation fails and NF = 1 keeps the fault
from the processor, under that fault (21_reference_mmu.md R182, R203). -/
def TranslatedAt (s : State) (place : Place) (asi : BitVec 8) (address : Word) (size : Size) (o : Translation)
    (t : State) : Prop :=
  let a := decodedAsi s.cfg asi
  s.now.machineCheck = none ∧ address.toNat % size.alignment = 0 ∧
    asiKind s.cfg asi = .normal ∧ translating s = true ∧
      ((∃ p k, o = .ok p k t ∧ Stands place size (locationKind t a address) p.toNat) ∨
        s.mmu.nf = true ∧ a ≠ 0x09#8 ∧
          ∃ ft p, o = .fault ft p t ∧ place = .suppressed (p.map BitVec.toNat))

/-- A read takes place here, in the state `t` that its translation leaves. -/
def LoadAt (s : State) (place : Place) (asi : BitVec 8) (address : Word) (size : Size) (t : State) : Prop :=
  PlainAt s place asi address size ∧ t = s ∨
    TranslatedAt s place asi address size (translate s .first (decodedAsi s.cfg asi) address false) t

/-- A write takes place here, in the state `t` that its translation leaves; every store carries out a pending
STBAR (20_memory.md R135). -/
def StoreAt (s : State) (place : Place) (asi : BitVec 8) (address : Word) (size : Size) (t : State) : Prop :=
  let u := { s with storeBarrierPending := false }
  PlainAt s place asi address size ∧ t = u ∨
    TranslatedAt s place asi address size (translate u .first (decodedAsi s.cfg asi) address true) t

/-- The write of an atomic load-store takes place here: its translation uses the page descriptor cache as the
read left it (21_reference_mmu.md R203). -/
def WriteHalfAt (s : State) (place : Place) (asi : BitVec 8) (address : Word) (size : Size) (t : State) : Prop :=
  let u := { s with storeBarrierPending := false }
  PlainAt s place asi address size ∧ t = u ∨
    TranslatedAt s place asi address size (translateCached u .second (decodedAsi s.cfg asi) address true) t

/-- An untranslated access to real memory at `pa`: the access that cannot fail. -/
def PlainAccess (s : State) (asi : BitVec 8) (address : Word) (size : Size) (pa : Nat) : Prop :=
  PlainAt s (.memory pa) asi address size

/-- A read that reads real memory at `pa` in `t`: untranslated, or translated. -/
def ReadAccess (s : State) (asi : BitVec 8) (address : Word) (size : Size) (pa : Nat) (t : State) : Prop :=
  LoadAt s (.memory pa) asi address size t

/-- A write that writes real memory at `pa` in `t`: untranslated, or translated. -/
def WriteAccess (s : State) (asi : BitVec 8) (address : Word) (size : Size) (pa : Nat) (t : State) : Prop :=
  StoreAt s (.memory pa) asi address size t

/-- An atomic load-store that reads real memory at `pa` in `r` and writes it at `qa` in `t`. -/
def AtomicAccess (s : State) (asi : BitVec 8) (address : Word) (size : Size) (pa : Nat) (r : State) (qa : Nat)
    (t : State) : Prop :=
  LoadAt s (.memory pa) asi address size r ∧ WriteHalfAt r (.memory qa) asi address size t

/-- The word at a physical address, the byte at the lowest address most significant (20_memory.md R101). -/
def wordAt (s : State) (pa : Nat) : Word :=
  wordOfBytes (s.mem.read8 pa) (s.mem.read8 (pa + 1)) (s.mem.read8 (pa + 2)) (s.mem.read8 (pa + 3))

/-- The delayed writes after some turns of the instruction cycle (70_reset_and_hazards.md R820). -/
def tickTimes : Nat → State → State
  | 0, s => s
  | n + 1, s => tickTimes n (tickPending s)

/-- The halfword at a physical address (20_memory.md R101). -/
def halfAt (s : State) (pa : Nat) : BitVec 16 :=
  (s.mem.read8 pa ++ s.mem.read8 (pa + 1) : BitVec (8 + 8))

/-- The bytes of an access at a physical address, zero-extended; of a doubleword one word (40_load_store.md
R306). -/
def valueAt (s : State) (pa : Nat) : Size → Word
  | .byte => (s.mem.read8 pa).setWidth 32
  | .half => (halfAt s pa).setWidth 32
  | _ => wordAt s pa

/-- The bytes a store of a word hands over, most significant first (20_memory.md R101, 40_load_store.md
R307). -/
def bytesStored (v : Word) : Size → List Byte
  | .byte => [v.extractLsb' 0 8]
  | .half => [v.extractLsb' 8 8, v.extractLsb' 0 8]
  | _ => bytesOfWord v

/-- A word cut to the size of an access. -/
def cutTo (v : Word) (size : Size) : Word := BitVec.ofNat 32 (v.toNat % 2 ^ (8 * size.bytes))

/-- What the read of one datum delivers in `t`, and the state it leaves: memory's value; of an I/O location the
environment's word, or a free one if it drives nothing, the access being performed behind those before it
(20_memory.md R121; log 39); under a suppressed fault a free value of the size (log 18). `second` is the second
word of a doubleword. -/
def Delivers (place : Place) (t : State) (asi : BitVec 8) (size : Size) (second : Bool) (v : Word) (u : State) :
    Prop :=
  match place with
  | .memory pa => v = valueAt t pa size ∧ u = t
  | .readOnly pa => v = valueAt t pa size ∧ u = t
  | .io pa =>
    v = cutTo v size ∧ (∀ d, t.now.io = some d → v = cutTo (if second then d.second else d.first) size) ∧
      u = { t with
        freeDraws := t.freeDraws + 1, ioTrace := t.ioTrace ++ [⟨false, decodedAsi t.cfg asi, pa, size, v⟩] }
  | .suppressed _ => v = cutTo v size ∧ u = { t with freeDraws := t.freeDraws + 1 }

/-- The two words that a doubleword read delivers, one after the other (20_memory.md R113). -/
def DeliversPair (place : Place) (t : State) (asi : BitVec 8) (v0 v1 : Word) (u : State) : Prop :=
  ∃ r, Delivers place t asi .dword false v0 r ∧ Delivers place.next r asi .dword true v1 u

/-- A store of these words, one after the other, by a virtual address, in the state `s` that its translation
leaves, the instruction changing `s` to `u` besides and writing the listed r registers: memory takes them
(`StoresAnd`); read-only memory keeps what it has, or raises the access exception, as the implementation has it
(log 41); an I/O location takes them behind the accesses before (20_memory.md R121; log 39); under a suppressed
fault each word may or may not be stored, in real memory at the physical address if there is one, and nothing
else changes (21_reference_mmu.md R182; log 18). -/
def PutsAnd (place : Place) (o : Host.Outcome State Fault Refusal) (s u : State) (asi : BitVec 8) (va : Word)
    (size : Size) (vs : List Word) (xs : List (RegNum × Word)) : Prop :=
  let completes (P : State → Prop) : Prop := Completes o fun t => RegsWritten s t s.psr.cwp xs ∧ P t
  match place with
  | .memory pa => StoresAnd o s u va pa (vs.flatMap fun v => bytesStored v size) xs
  | .readOnly _ =>
    (s.cfg.romStoreTraps = true → Traps o .dataAccessException s) ∧
      (s.cfg.romStoreTraps = false →
        completes fun t =>
          t = { u with
            pc := s.npc, npc := s.npc + 4#32, globals := t.globals, windowed := t.windowed
            storeBarrierPending := false })
  | .io pa =>
    completes fun t =>
      t = { u with
        pc := s.npc, npc := s.npc + 4#32, globals := t.globals, windowed := t.windowed
        storeBarrierPending := false
        ioTrace :=
          s.ioTrace
            ++ vs.zipIdx.map fun v => ⟨true, decodedAsi s.cfg asi, pa + 4 * v.2, size, cutTo v.1 size⟩ }
  | .suppressed p =>
    let pa := p.getD 0
    completes fun t =>
      ∃ stored : Nat → Bool,
        (∀ k, stored k = true →
          p ≠ none ∧ regionKind s.cfg (decodedAsi s.cfg asi) (pa + 4 * k) = .realMemory) ∧
        (∀ a, (∀ k, k < vs.length → stored k = true → a < pa + 4 * k ∨ pa + 4 * k + size.bytes ≤ a) →
          t.mem.read8 a = s.mem.read8 a) ∧
        (∀ k (h : k < vs.length), stored k = true →
          ∀ j (h' : j < (bytesStored vs[k] size).length),
            t.mem.read8 (pa + 4 * k + j) = (bytesStored vs[k] size)[j]) ∧
        CopiesKept s t va pa vs.length stored ∧
          t = { u with
            pc := s.npc, npc := s.npc + 4#32, globals := t.globals, windowed := t.windowed
            storeBarrierPending := false, mem := t.mem, staleWords := t.staleWords
            freeDraws := s.freeDraws + vs.length }

/-- The same with no change besides. -/
def Puts (place : Place) (o : Host.Outcome State Fault Refusal) (s : State) (asi : BitVec 8) (va : Word)
    (size : Size) (vs : List Word) (xs : List (RegNum × Word)) : Prop := PutsAnd place o s s asi va size vs xs

/-- An aligned access that goes nowhere, with no machine check presented: into an address space that is none, or
untranslated to a physical address where nothing stands (20_memory.md R108, R119; log 25, log 39). -/
def AbsentAccess (s : State) (asi : BitVec 8) (address : Word) (size : Size) : Prop :=
  s.now.machineCheck = none ∧ address.toNat % size.alignment = 0 ∧
    (asiKind s.cfg asi = .undefined ∨
      ∃ pa, plainPa s asi address = some pa ∧ regionKind s.cfg (decodedAsi s.cfg asi) pa = .unmapped)

/-- An aligned access to an architectural address space whose translation `o` leaves `t` and fails, NF not
keeping the fault from the processor, or leads to a physical address where nothing stands, with no machine check
presented (21_reference_mmu.md R182, R192; 20_memory.md R119; log 39). -/
def TranslationFails (s : State) (asi : BitVec 8) (address : Word) (size : Size) (o : Translation) (t : State) :
    Prop :=
  let a := decodedAsi s.cfg asi
  s.now.machineCheck = none ∧ address.toNat % size.alignment = 0 ∧
    asiKind s.cfg asi = .normal ∧ translating s = true ∧
      ((s.mmu.nf = false ∨ a = 0x09#8) ∧ (∃ ft p, o = .fault ft p t) ∨
        ∃ p k, o = .ok p k t ∧ regionKind s.cfg a p.toNat = .unmapped)

/-- A read that raises the access exception in `t`. -/
def LoadFails (s : State) (asi : BitVec 8) (address : Word) (size : Size) (t : State) : Prop :=
  AbsentAccess s asi address size ∧ t = s ∨
    TranslationFails s asi address size (translate s .first (decodedAsi s.cfg asi) address false) t

/-- A write that raises the access exception in `t`; it has carried out a pending STBAR (20_memory.md R135). -/
def StoreFails (s : State) (asi : BitVec 8) (address : Word) (size : Size) (t : State) : Prop :=
  let u := { s with storeBarrierPending := false }
  AbsentAccess s asi address size ∧ t = u ∨
    TranslationFails s asi address size (translate u .first (decodedAsi s.cfg asi) address true) t

/-- The write of an atomic load-store, its read done, that raises the access exception in `t`. -/
def WriteHalfFails (s : State) (asi : BitVec 8) (address : Word) (size : Size) (t : State) : Prop :=
  let u := { s with storeBarrierPending := false }
  AbsentAccess s asi address size ∧ t = u ∨
    TranslationFails s asi address size (translateCached u .second (decodedAsi s.cfg asi) address true) t

/-- A fault reaches the MMU's fault registers: nothing is recorded over a fault of a class that it may not
overwrite; else its level, access type, fault type and address are, with OW if the recorded fault is of its own
class (21_reference_mmu.md R187 to R191; log 23, log 24). -/
def FaultRecorded (m m' : Mmu) (cls : FaultClass) (level : BitVec 2) (access ft : BitVec 3) (bus : Bool)
    (va : Word) : Prop :=
  let kept := m.statusClass = some .table ∧ cls ≠ .table ∨ m.statusClass = some .data ∧ cls = .instruction
  (kept → m' = m) ∧
    (¬kept →
      (bus = false → m'.status.ebe = 0#8) ∧
        m' = { m with
          statusClass := some cls, far := va
          status :=
            { ebe := m'.status.ebe, level := level, access := access, ft := ft, fav := true
              ow := decide (m.statusClass = some cls) } })

/-! ### What rounding is (10_state.md R56, R67; 44_fpop.md R605; log 29) -/

/-- Some bits are a number of a format with this sign and this value. -/
def StandsFor (f : FpFormat) (bits : Nat) (sign : Bool) (x : ℝ) : Prop :=
  ∃ (m : Nat) (e : Int), fpUnpack f bits = .num sign m e ∧
    x = (if sign then -1 else 1) * (m : ℝ) * (2 : ℝ) ^ e

/-- A real number is a number of a format. -/
def IsNumber (f : FpFormat) (x : ℝ) : Prop := ∃ bits sign, StandsFor f bits sign x

/-- The exponent of the least significant bit of the largest number of a format. -/
def FpFormat.topQuantum (f : FpFormat) : Int := f.minQuantum + (f.maxExp : Int) - 2

/-- The significand of the largest number of a format. -/
def FpFormat.topMant (f : FpFormat) : Nat := 2 ^ (f.fracBits + 1) - 1

/-- Does rounding go away from zero for numbers of this sign (10_state.md R56: RD 2 is toward plus infinity, 3
toward minus infinity). -/
def roundsAway (rd : BitVec 2) (sign : Bool) : Bool :=
  (rd == 2#2 && !sign) || (rd == 3#2 && sign)

/-- Is a number too large for a format: rounded to its precision it is beyond the largest number. -/
def Overflows (f : FpFormat) (rd : BitVec 2) (sign : Bool) (x : ℝ) : Prop :=
  let ulp : ℝ := (2 : ℝ) ^ f.topQuantum
  let largest : ℝ := (f.topMant : ℝ) * ulp
  (rd = 0#2 → largest + ulp / 2 ≤ |x|) ∧
    (rd ≠ 0#2 → if roundsAway rd sign then largest < |x| else largest + ulp ≤ |x|)

/-- `y` is the number of a format that `x` is rounded to: the nearest, of two equally near ones the one with an
even significand; or the next one toward zero, plus or minus infinity (10_state.md R56). -/
def Nearest (f : FpFormat) (rd : BitVec 2) (bits : Nat) (x y : ℝ) : Prop :=
  (rd = 0#2 → ∀ z, IsNumber f z → |y - x| ≤ |z - x| ∧ (|z - x| = |y - x| → z ≠ y → bits % 2 = 0)) ∧
    (rd = 1#2 → |y| ≤ |x| ∧ ∀ z, IsNumber f z → |z| ≤ |x| → |z| ≤ |y|) ∧
      (rd = 2#2 → x ≤ y ∧ ∀ z, IsNumber f z → x ≤ z → y ≤ z) ∧
        (rd = 3#2 → y ≤ x ∧ ∀ z, IsNumber f z → z ≤ x → z ≤ y)

/-- A result is the number `x`, not zero, correctly rounded, with the exceptions of the standard: overflow and
inexact, to infinity or to the largest number by the direction; else inexact if the result differs, underflow if
`x` is below the normal numbers and the result is inexact or underflow traps (tininess before rounding,
10_state.md R67). -/
def Rounded (f : FpFormat) (r : Rounding) (x : ℝ) (res : FpResult) : Prop :=
  ∃ sign : Bool, (sign = true ↔ x < 0) ∧
    (Overflows f r.rd sign x →
      res.flags = { of := true, nx := true } ∧
        (r.rd = 0#2 ∨ roundsAway r.rd sign = true → fpUnpack f res.bits = .inf sign) ∧
          (r.rd ≠ 0#2 → roundsAway r.rd sign = false →
            fpUnpack f res.bits = .num sign f.topMant f.topQuantum)) ∧
      (¬Overflows f r.rd sign x →
        ∃ y, StandsFor f res.bits sign y ∧ Nearest f r.rd res.bits x y ∧
          res.flags = { uf := res.flags.uf, nx := res.flags.nx } ∧ (res.flags.nx = true ↔ y ≠ x) ∧
            (res.flags.uf = true ↔
              |x| < (2 : ℝ) ^ (f.minQuantum + (f.fracBits : Int)) ∧ (y ≠ x ∨ r.ufm = true))) ∧
        res.bits < 2 * f.signBit

end Sys2Proof.Machine
end

