-- ==== Sys2Proof/WellFormed.lean ====
section
/-! DEFINITION. Which terms of `Instr` an instruction word can stand for: the fields that pick a row
of spec/opcode_table.json over a neighbour (30_encoding.md R236 to R242; 43_state_regs_misc.md R561,
R571, R580). -/

namespace Sys2Proof

/-- The opf values FPop1 assigns (30_encoding.md R239). -/
def assignedOpf1 : List (BitVec 9) :=
  [0x001#9, 0x005#9, 0x009#9, 0x029#9, 0x02A#9, 0x02B#9, 0x041#9, 0x042#9, 0x043#9, 0x045#9,
   0x046#9, 0x047#9, 0x049#9, 0x04A#9, 0x04B#9, 0x04D#9, 0x04E#9, 0x04F#9, 0x069#9, 0x06E#9,
   0x0C4#9, 0x0C6#9, 0x0C7#9, 0x0C8#9, 0x0C9#9, 0x0CB#9, 0x0CC#9, 0x0CD#9, 0x0CE#9, 0x0D1#9,
   0x0D2#9, 0x0D3#9]

/-- The opf values FPop2 assigns (30_encoding.md R240). -/
def assignedOpf2 : List (BitVec 9) :=
  [0x051#9, 0x052#9, 0x053#9, 0x055#9, 0x056#9, 0x057#9]

/-- The op3 values that stand for no instruction with op = 2 (30_encoding.md R237). -/
def unassignedArith : List (BitVec 6) :=
  [0x09#6, 0x0D#6, 0x19#6, 0x1D#6, 0x2C#6, 0x2D#6, 0x2E#6, 0x2F#6, 0x3E#6, 0x3F#6]

/-- The op3 values that stand for no instruction with op = 3 (30_encoding.md R238). -/
def unassignedMem : List (BitVec 6) :=
  [0x08#6, 0x0B#6, 0x0C#6, 0x0E#6, 0x18#6, 0x1B#6, 0x1C#6, 0x1E#6, 0x22#6, 0x28#6, 0x29#6, 0x2A#6,
   0x2B#6, 0x2C#6, 0x2D#6, 0x2E#6, 0x2F#6, 0x32#6, 0x38#6, 0x39#6, 0x3A#6, 0x3B#6, 0x3C#6, 0x3D#6,
   0x3E#6, 0x3F#6]

/-- A well-formed instruction: one that some word encodes. -/
def Instr.wellFormed : Instr → Bool
  | .sethi rd imm => !(rd == 0#5 && imm == 0#22)
  | .rdasr rd rs1 => rs1 != 0#5 && !(rs1 == 15#5 && rd == 0#5)
  | .wrasr rd _ _ => rd != 0#5
  | .fpop1Unassigned _ _ opf _ => !(assignedOpf1.contains opf)
  | .fpop2Unassigned _ _ opf _ => !(assignedOpf2.contains opf)
  | .unassignedOp2 op2 => op2 == 1#3 || op2 == 3#3 || op2 == 5#3
  | .unassignedOp3Arith op3 => unassignedArith.contains op3
  | .unassignedOp3Mem op3 => unassignedMem.contains op3
  | _ => true

end Sys2Proof
end

