-- ==== Sys2Proof/Certificates/Slice0/Obligations.lean ====
section
/-! DEFINITION. The statements for the provers, one `def Obligations.<Name> : Prop` each; OBLIGATIONS.json
lists them. The predicates they are written in stand at the end of Sys2Proof/Safety.lean. -/

open Sys2Proof Sys2Proof.Machine

/-! ### Encoding -/

/-- Decoding the bytes of an encoded well-formed instruction gives the instruction back and leaves the rest
(30_encoding.md sections 1 to 3). -/
def Obligations.DecodeOfEncode : Prop :=
  ∀ (i : Instr) (rest : List Byte), i.wellFormed = true →
    decode (bytesOfWord (encode i) ++ rest) = .ok (i, rest)

/-- Every 32-bit word is a well-formed instruction, the words of no instruction among them: they are the
table's rows of unused patterns (30_encoding.md R242). -/
def Obligations.EveryWordDecodes : Prop :=
  ∀ w : Word, ∃ i : Instr, decode (bytesOfWord w) = .ok (i, []) ∧ i.wellFormed = true

/-- A few words written out from the encodings of 30_encoding.md and the examples of the rules: SAVE
%sp, -96, %sp (R525), RDPSR %l0 (R563), TA 0 (R545), BNE +0x20 (R510), FADDs (R645), SETHI (R405), STBAR
(R580). -/
def Obligations.DecodeSampleWords : Prop :=
  decode (bytesOfWord 0x9DE3BFA0#32) = .ok (.save 14#5 14#5 (.imm 0x1FA0#13), []) ∧
    decode (bytesOfWord 0xA1480000#32) = .ok (.rdpsr 16#5, []) ∧
      decode (bytesOfWord 0x91D02000#32) = .ok (.ta 0#5 (.imm 0#7), []) ∧
        decode (bytesOfWord 0x12800008#32) = .ok (.bne false 8#22, []) ∧
          decode (bytesOfWord 0x87A04822#32) = .ok (.fadds 3#5 1#5 2#5, []) ∧
            decode (bytesOfWord 0x033FFFFF#32) = .ok (.sethi 1#5 0x3FFFFF#22, []) ∧
              decode (bytesOfWord 0x8143C000#32) = .ok (.stbar, [])

/-! ### The instruction cycle -/

/-- With nothing presented by the environment but the end of some FPops and an exception that the coprocessor
defers, the step at a state in execute_mode ends those, makes that one outstanding, turns the delayed writes,
fetches at PC and is `exec` of the instruction the fetched word decodes to, in the state the fetch leaves, the
fetched word kept: for every fetch that does not fault, translated and stale ones too, and for the word in
untranslated real memory at PC, whose fetch changes nothing (70_reset_and_hazards.md R810). A word that the
implementation does not implement is PrioritiesBeforeExecution's, but for the FPops, which the FPU itself turns
down. Behind an FPop2, whatever comes of it, the fcc hazard lasts for the next instruction (R825). That the
counts of the fcc hazard and of the hazard of the delayed writes run down here is the model's form (log 11, log
6). -/
def Obligations.StepRunsDecodedInstruction : Prop :=
  ∀ (s : State) (i : Instr) (w : Word) (rest : List Byte) (n : Nat) (deferred : Option Cpop),
    s.mode = .execute →
      (takeInputs s).now = { Inputs.quiet with fpuEnds := n, cpDeferred := deferred } → s.annul = false →
      unimplemented s.cfg w = false ∨ isFpopWord w = true → decode (bytesOfWord w) = .ok (i, rest) →
        let u := turn (cpDefers (fpEndWork n (takeInputs s)))
        let runs (v : State) : Prop :=
          step s =
            exec i
              { v with
                instruction := w
                fccWindow :=
                  if w.toNat / 2 ^ 30 = 2 ∧ w.toNat / 2 ^ 19 % 64 = 0x35 then max (s.fccWindow - 1) 2
                  else s.fccWindow - 1
                recentWrites := tickRecent s.recentWrites }
        (∀ v, fetch u = .ok w v → runs v) ∧
          (translating s = false → s.cfg.ibufStale = false →
            regionKind s.cfg (fetchAsi u) s.pc.toNat = .realMemory → wordAt s s.pc.toNat = w → runs u)

/-- An annulled instruction is fetched and skipped: annul is cleared, PC and nPC go on, whatever comes of the
fetch, translated or not: in the state in which it delivers a word or faults, and untranslated whatever stands
there, an unmapped address too (42_control_transfer.md R506; 70_reset_and_hazards.md R810; a fetch of an I/O
location is seen by its device, log 32, log 39). -/
def Obligations.AnnulledInstructionSkipped : Prop :=
  ∀ s : State, s.mode = .execute → (takeInputs s).now = Inputs.quiet → s.annul = true →
    let u := turn (takeInputs s)
    let skips (v : State) : Prop :=
      step s = .next { v with annul := false, pc := s.npc, npc := s.npc + 4#32 }
    (∀ w v, fetch u = .ok w v → skips v) ∧ (∀ x v, fetch u = .fault x v → skips v) ∧
    (translating s = false →
      Completes (step s) fun t =>
        MemoryKept s t ∧
          (regionKind s.cfg (fetchAsi u) s.pc.toNat ≠ .io → t.ioTrace = s.ioTrace) ∧
            t = { u with
              annul := false, pc := s.npc, npc := s.npc + 4#32, freeDraws := t.freeDraws
              ioTrace := t.ioTrace })

/-- In execute_mode a pending interrupt above PIL, or of level 15, is taken with traps enabled, before any
instruction: its trap type is 0x10 plus the level; with traps disabled, or at or below PIL, none is. ET and PIL
are those of the last WRPSR that is still pending, if one is, else those of the PSR: WRPSR appears to write them
at once (60_exceptions.md R730, R760; 43_state_regs_misc.md R575; 70_reset_and_hazards.md R820). -/
def Obligations.InterruptTaken : Prop :=
  ∀ (s : State) (level : BitVec 4), s.mode = .execute →
    (takeInputs s).now = { Inputs.quiet with irl := level } →
      let p := effectivePsr (takeInputs s)
      (p.et = true → level = 15#4 ∨ p.pil < level →
        Traps (step s) (.interruptLevel level) (takeInputs s) ∧
          trapType (.interruptLevel level) = 0x10#8 + level.setWidth 8) ∧
      (p.et = false ∨ (level ≠ 15#4 ∧ level ≤ p.pil) → interruptingTrap (takeInputs s) = none) ∧
      ((∀ x ∈ s.pending, x.reg ≠ .psr) → p.et = s.psr.et ∧ p.pil = s.psr.pil) ∧
      ∀ (q r : List PendingWrite) (v : Word) (k : Nat), s.pending = q ++ ⟨.psr, v, k⟩ :: r →
        (∀ x ∈ r, x.reg ≠ .psr) → p.et = v.getLsbD 5 ∧ p.pil.toNat = v.toNat / 256 % 16

/-- reset_mode and error_mode: error_mode is left only for reset_mode, when bp_reset_in is asserted, and
pb_error is cleared; reset_mode is left when it is released, by the reset trap, whatever ET is: S = 1, ET = 0,
PC = 0, nPC = 4, tt unchanged, the FPU executing with an empty queue, no exception of the coprocessor
outstanding, no delayed write, PSO_mode off, the MMU disabled (70_reset_and_hazards.md R800 to R803). With
RESET_ON_ERROR error_mode is left by the reset trap itself (R804). Memory is kept by R802's decision D10. That
the f registers are kept, which R95 and R801 leave unspecified, is the model's choice (log 35). -/
def Obligations.ResetAndErrorModes : Prop :=
  ∀ s : State,
    let resets : Prop :=
      Completes (step s) fun t =>
        t.mode = .execute ∧ t.pbError = false ∧ t.pc = 0#32 ∧ t.npc = 4#32 ∧ t.psr.s = true ∧
          t.psr.et = false ∧ t.tbr.tt = s.tbr.tt ∧ t.annul = false ∧ t.pending = [] ∧
            t.recentWrites = [] ∧ t.fpuMode = .execute ∧ t.fpuQueue = [] ∧ t.fq = [] ∧
              t.cpPending = false ∧ t.storeBarrierPending = false ∧ t.psoMode = false ∧ t.staleWords = [] ∧
                t.mmu = { s.mmu with e := false, pso := false } ∧ MemoryKept s t ∧ t.fregs = s.fregs ∧
                  t.cfg = s.cfg
    (s.mode = .error → (takeInputs s).now.resetIn = true →
      step s = .next { takeInputs s with mode := .reset, pbError := false }) ∧
    (s.mode = .error → (takeInputs s).now.resetIn = false → s.cfg.resetOnError = false →
      step s = .next (takeInputs s)) ∧
    (s.mode = .execute → (takeInputs s).now.resetIn = true →
      step s = .next { takeInputs s with mode := .reset }) ∧
    (s.mode = .reset → (takeInputs s).now.resetIn = true → step s = .next (takeInputs s)) ∧
    (s.mode = .error → (takeInputs s).now.resetIn = false → s.cfg.resetOnError = true → resets) ∧
    (s.mode = .reset → (takeInputs s).now.resetIn = false → resets)

/-! ### Invariants -/

/-- Every step keeps memory in its canonical form: addresses strictly rising, no byte listed that an
unlisted address reads as (the model's form of 20_memory.md R100; log 3). -/
def Obligations.StepKeepsMemoryCanonical : Prop :=
  ∀ s t : State, s.mem.wf → step s = .next t → t.mem.wf

/-- PC and nPC stay word-aligned in every step from every state in which they are (10_state.md R30). CWP stays a
window that exists, delayed writes included, and the WIM bits of windows that do not exist stay zero
(10_state.md R43, R44; 43_state_regs_misc.md R573, R574). -/
def Obligations.StepKeepsPcAndWindowsLegal : Prop :=
  (∀ s t : State, PcAligned s → step s = .next t → PcAligned t) ∧
    ∀ s t : State, WindowExists s ∧ WimImplemented s → step s = .next t →
      WindowExists t ∧ WimImplemented t

/-- Without a floating-point queue the queue stays empty, no FPop is worked on behind the IU's back and no
exception is ever deferred (10_state.md R75; 60_exceptions.md R702); and no step changes what the implementation
fixes. -/
def Obligations.StepKeepsFpuSynchronous : Prop :=
  ∀ s t : State, NoQueueNoDeferral s → step s = .next t → NoQueueNoDeferral t ∧ t.cfg = s.cfg

/-- What reset leaves, where the spec gives a value: PC = 0, nPC = 4, ET = 0, S = 1, annul = 0, pb_error = 0, no
delayed write, empty FQ, FPU executing, no exception of the coprocessor outstanding, PSO_mode off, MMU disabled
with PSO off (10_state.md section 12; 70_reset_and_hazards.md section 1); and it meets every invariant. -/
def Obligations.ResetState : Prop :=
  let s := State.reset
  (s.mode = .execute ∧ s.pc = 0#32 ∧ s.npc = 4#32 ∧ s.psr.et = false ∧ s.psr.s = true ∧
    s.annul = false ∧ s.pbError = false ∧ s.pending = [] ∧ s.recentWrites = [] ∧ s.fpuQueue = [] ∧
      s.fq = [] ∧ s.fpuMode = .execute ∧ s.cpPending = false ∧ s.storeBarrierPending = false ∧ s.psoMode = false ∧
        s.staleWords = [] ∧ s.ioTrace = [] ∧ s.mmu.e = false ∧ s.mmu.pso = false ∧
          (tbrWord s).extractLsb' 0 4 = 0#4) ∧
    s.mem.wf ∧ PcAligned s ∧ WindowExists s ∧ WimImplemented s ∧ NoQueueNoDeferral s

/-- No run of any length from any state stops: every instruction word completes or takes its trap, and every
access to an I/O location is performed (the spec's exceptions are all traps or error_mode, 60_exceptions.md
R700, R745; 20_memory.md R121). -/
def Obligations.RunsNeverStop : Prop := ∀ (s : State) (k : Nat), RunsSafely k s

/-! ### Registers -/

/-- r[0] reads zero and a write to it is discarded; any other r register reads what was written to it, and
every other register of the window is as before (10_state.md R24). The windows overlap: r[o], 8 to 15, is
r[o + 16] of window CWP - 1, and r[i], 24 to 31, is r[i - 16] of window CWP + 1, modulo NWINDOWS, for a read and
after a write; locals are private (10_state.md R23). -/
def Obligations.RegistersAndWindows : Prop :=
  (∀ (s : State) (w : BitVec 5) (n m : RegNum) (v : Word),
    regIn s w 0#5 = 0#32 ∧ setRegIn s w 0#5 v = s ∧
      (n ≠ 0#5 → regIn (setRegIn s w n v) w n = v) ∧
        (m ≠ n → regIn (setRegIn s w n v) w m = regIn s w m)) ∧
  ∀ (s : State) (w : BitVec 5) (n : RegNum) (v : Word), w.toNat < s.cfg.nwindows →
    (8 ≤ n.toNat → n.toNat ≤ 15 →
      regIn s w n = regIn s (cwpBelow s.cfg w) (n + 16#5) ∧
        regIn (setRegIn s w n v) (cwpBelow s.cfg w) (n + 16#5) = v) ∧
    (24 ≤ n.toNat →
      regIn s w n = regIn s (cwpAbove s.cfg w) (n - 16#5) ∧
        regIn (setRegIn s w n v) (cwpAbove s.cfg w) (n - 16#5) = v) ∧
    (16 ≤ n.toNat → n.toNat ≤ 23 →
      ∀ (w' : BitVec 5) (m : RegNum), w'.toNat < s.cfg.nwindows → w' ≠ w →
        regIn (setRegIn s w n v) w' m = regIn s w' m)

/-- The operand forms: operand2 is r[rs2] or the sign-extended simm13; an effective address adds it to r[rs1];
an alternate-space address is r[rs1] + r[rs2] in the instruction's ASI, its immediate form illegal, both in
supervisor mode only; a shift count is the low five bits of r[rs2] or shcnt; a trap number is the low seven bits
of r[rs1] plus r[rs2] or the immediate (40_load_store.md R300; 41_integer_alu.md section 1 and 4;
42_control_transfer.md section 8). -/
def Obligations.OperandForms : Prop :=
  ∀ (s : State) (rs1 rs2 : RegNum) (imm : BitVec 13) (shcnt : BitVec 5) (number : BitVec 7),
    operand2 s (.reg rs2) = reg s rs2 ∧ (operand2 s (.imm imm)).toInt = imm.toInt ∧
      effectiveAddress s rs1 (.imm imm) = BitVec.ofInt 32 ((reg s rs1).toInt + imm.toInt) ∧
        effectiveAddress s rs1 (.reg rs2) = reg s rs1 + reg s rs2 ∧
          shiftCount s (.reg rs2) = (reg s rs2).toNat % 32 ∧ shiftCount s (.imm shcnt) = shcnt.toNat ∧
            (trapNumber s rs1 (.reg rs2)).toNat = ((reg s rs1).toNat + (reg s rs2).toNat) % 128 ∧
              (trapNumber s rs1 (.imm number)).toNat = ((reg s rs1).toNat + number.toNat) % 128 ∧
                ∀ (asi : BitVec 8) (k : BitVec 8 → Word → Res),
                  (s.psr.s = true →
                    alternate s rs1 (.reg asi rs2) k =
                        k asi (BitVec.ofNat 32 ((reg s rs1).toNat + (reg s rs2).toNat)) ∧
                      alternate s rs1 (.imm imm) k = .trap .illegalInstruction s) ∧
                    (s.psr.s = false → ∀ o, alternate s rs1 o k = .trap .privilegedInstruction s)

/-! ### Integer arithmetic -/

/-- SETHI writes imm22 over ten zero bits and NOP changes only PC and nPC (41_integer_alu.md section 2). SLL,
SRL, SRA as arithmetic: the value times 2^count modulo 2^32, its unsigned and its signed quotient by 2^count,
with a count of 0 to 31; icc unchanged (section 4). -/
def Obligations.SethiNopAndShiftResults : Prop :=
  ∀ (s : State) (rd rs1 : RegNum) (imm : BitVec 22) (o : ShiftOperand),
    let a := reg s rs1
    let n := shiftCount s o
    WritesReg (exec (.sethi rd imm) s) s rd (BitVec.ofNat 32 (imm.toNat * 1024)) s.psr.icc ∧
      WritesRegs (exec .nop s) s [] s.psr.icc s.y ∧ n < 32 ∧
        WritesReg (exec (.sll rd rs1 o) s) s rd (BitVec.ofNat 32 (a.toNat * 2 ^ n)) s.psr.icc ∧
          WritesReg (exec (.srl rd rs1 o) s) s rd (BitVec.ofNat 32 (a.toNat / 2 ^ n)) s.psr.icc ∧
            WritesReg (exec (.sra rd rs1 o) s) s rd (BitVec.ofInt 32 (a.toInt / 2 ^ n)) s.psr.icc

/-- AND, ANDN, OR, ORN, XOR, XNOR: the result, icc and everything else unchanged; their cc forms: the same with
N the result's sign, Z whether it is zero, V = C = 0 (41_integer_alu.md section 3, R401). -/
def Obligations.LogicalResults : Prop :=
  ∀ (s : State) (rd rs1 : RegNum) (o : Operand2),
    let a := reg s rs1
    let b := operand2 s o
    let both (plain cc : Instr) (r : Word) : Prop :=
      WritesReg (exec plain s) s rd r s.psr.icc ∧
        WritesReg (exec cc s) s rd r ⟨r.getLsbD 31, decide (r = 0#32), false, false⟩
    both (.and rd rs1 o) (.andcc rd rs1 o) (a &&& b) ∧
      both (.andn rd rs1 o) (.andncc rd rs1 o) (a &&& ~~~b) ∧
        both (.or rd rs1 o) (.orcc rd rs1 o) (a ||| b) ∧
          both (.orn rd rs1 o) (.orncc rd rs1 o) (a ||| ~~~b) ∧
            both (.xor rd rs1 o) (.xorcc rd rs1 o) (a ^^^ b) ∧
              both (.xnor rd rs1 o) (.xnorcc rd rs1 o) (~~~(a ^^^ b))

/-- ADD, ADDX, SUB, SUBX and their cc forms: sum and difference modulo 2^32 of the operands and, for the X
forms, the carry; icc unchanged, or of an addition or a subtraction (41_integer_alu.md sections 5 and 7; what
`iccAdd` and `iccSub` are is stated by ArithmeticFlags). -/
def Obligations.AddSubtractResults : Prop :=
  ∀ (s : State) (rd rs1 : RegNum) (o : Operand2),
    let a := reg s rs1
    let b := operand2 s o
    let c : Word := if s.psr.icc.c then 1#32 else 0#32
    WritesReg (exec (.add rd rs1 o) s) s rd (a + b) s.psr.icc ∧
      WritesReg (exec (.addx rd rs1 o) s) s rd (a + b + c) s.psr.icc ∧
        WritesReg (exec (.sub rd rs1 o) s) s rd (a - b) s.psr.icc ∧
          WritesReg (exec (.subx rd rs1 o) s) s rd (a - b - c) s.psr.icc ∧
            WritesReg (exec (.addcc rd rs1 o) s) s rd (a + b) (iccAdd a b (a + b)) ∧
              WritesReg (exec (.addxcc rd rs1 o) s) s rd (a + b + c) (iccAdd a b (a + b + c)) ∧
                WritesReg (exec (.subcc rd rs1 o) s) s rd (a - b) (iccSub a b (a - b)) ∧
                  WritesReg (exec (.subxcc rd rs1 o) s) s rd (a - b - c) (iccSub a b (a - b - c))

/-- icc after an addition with a carry-in and after a subtraction with a borrow-in: N, Z and the formulas for V
and C; V is set exactly when the signed result does not fit in 32 bits; C exactly when the unsigned sum does
not fit, or when a < b + borrow as unsigned numbers (41_integer_alu.md R402, R403). -/
def Obligations.ArithmeticFlags : Prop :=
  ∀ (a b : Word) (carry : Bool),
    let c : Word := (BitVec.ofBool carry).setWidth 32
    let n : Nat := carry.toNat
    let a31 := a.getLsbD 31
    let b31 := b.getLsbD 31
    (let r := a + b + c
    let r31 := r.getLsbD 31
    let f := iccAdd a b r
    f.n = r31 ∧ f.z = decide (r = 0#32) ∧
      f.v = ((a31 && b31 && !r31) || (!a31 && !b31 && r31)) ∧
      f.c = ((a31 && b31) || (!r31 && (a31 || b31))) ∧
      f.v = decide (a.toInt + b.toInt + (n : Int) ≠ r.toInt) ∧
      f.c = decide (2 ^ 32 ≤ a.toNat + b.toNat + n)) ∧
    (let r := a - b - c
    let r31 := r.getLsbD 31
    let f := iccSub a b r
    f.n = r31 ∧ f.z = decide (r = 0#32) ∧
      f.v = ((a31 && !b31 && !r31) || (!a31 && b31 && r31)) ∧
      f.c = ((!a31 && b31) || (r31 && (!a31 || b31))) ∧
      f.v = decide (a.toInt - b.toInt - (n : Int) ≠ r.toInt) ∧
      f.c = decide (a.toNat < b.toNat + n))

/-- TADDcc, TSUBcc and their TV forms: the sum or difference with its icc, but V also set if either operand has
a nonzero tag; a TV form traps instead when V would be set, and completes only with V = 0
(41_integer_alu.md sections 6 and 8). -/
def Obligations.TaggedResults : Prop :=
  ∀ (s : State) (rd rs1 : RegNum) (o : Operand2),
    let a := reg s rs1
    let b := operand2 s o
    let tag := decide (a.toNat % 4 ≠ 0) || decide (b.toNat % 4 ≠ 0)
    let addV := (iccAdd a b (a + b)).v || tag
    let subV := (iccSub a b (a - b)).v || tag
    WritesReg (exec (.taddcc rd rs1 o) s) s rd (a + b) { iccAdd a b (a + b) with v := addV } ∧
      WritesReg (exec (.tsubcc rd rs1 o) s) s rd (a - b) { iccSub a b (a - b) with v := subV } ∧
        (addV = false →
          WritesReg (exec (.taddcctv rd rs1 o) s) s rd (a + b) { iccAdd a b (a + b) with v := false }) ∧
          (addV = true → Traps (exec (.taddcctv rd rs1 o) s) .tagOverflow s) ∧
            (subV = false →
              WritesReg (exec (.tsubcctv rd rs1 o) s) s rd (a - b)
                { iccSub a b (a - b) with v := false }) ∧
              (subV = true → Traps (exec (.tsubcctv rd rs1 o) s) .tagOverflow s)

/-- MULScc: r[rs1] shifted right with N xor V above it, plus operand2 if Y is odd; icc of that addition; Y
shifted right with r[rs1]'s low bit above it (41_integer_alu.md section 9). UMUL, SMUL, UMULcc, SMULcc: the
64-bit product, its high word in Y and its low word in r[rd]; the cc forms set N and Z by the low word and clear
V and C (section 10). -/
def Obligations.MultiplyResults : Prop :=
  ∀ (s : State) (rd rs1 : RegNum) (o : Operand2),
    let a := reg s rs1
    let b := operand2 s o
    let top : Nat := if (s.psr.icc.n ^^ s.psr.icc.v) then 2 ^ 31 else 0
    let op1 := BitVec.ofNat 32 (top + a.toNat / 2)
    let op2 := if s.y.toNat % 2 = 0 then 0#32 else b
    let u := a.toNat * b.toNat
    let ulow := BitVec.ofNat 32 u
    let uhigh := BitVec.ofNat 32 (u / 2 ^ 32)
    let p := a.toInt * b.toInt
    let slow := BitVec.ofInt 32 p
    let shigh := BitVec.ofInt 32 (p / 2 ^ 32)
    let icc (r : Word) : Icc := ⟨r.getLsbD 31, decide (r = 0#32), false, false⟩
    WritesRegs (exec (.mulscc rd rs1 o) s) s [(rd, op1 + op2)] (iccAdd op1 op2 (op1 + op2))
        (BitVec.ofNat 32 (a.toNat % 2 * 2 ^ 31 + s.y.toNat / 2)) ∧
      WritesRegs (exec (.umul rd rs1 o) s) s [(rd, ulow)] s.psr.icc uhigh ∧
        WritesRegs (exec (.smul rd rs1 o) s) s [(rd, slow)] s.psr.icc shigh ∧
          WritesRegs (exec (.umulcc rd rs1 o) s) s [(rd, ulow)] (icc ulow) uhigh ∧
            WritesRegs (exec (.smulcc rd rs1 o) s) s [(rd, slow)] (icc slow) shigh

/-- UDIV, SDIV, UDIVcc, SDIVcc: the quotient of Y and r[rs1] by a nonzero divisor, rounded toward zero and
clamped to the 32-bit range, Y unchanged; the cc forms set N and Z by the result, V on overflow (of the
signed forms as SDIV_OVERFLOW_METHOD says) and clear C; a zero divisor traps (41_integer_alu.md section
11). That the quotient of -2^63 by -1 counts as 2^63 is the model's reading (log 30). -/
def Obligations.DivideResults : Prop :=
  ∀ (s : State) (rd rs1 : RegNum) (o : Operand2),
    let d := operand2 s o
    let n : Nat := s.y.toNat * 2 ^ 32 + (reg s rs1).toNat
    let q : Nat := n / d.toNat
    let ures := BitVec.ofNat 32 (min q (2 ^ 32 - 1))
    let uover := decide (2 ^ 32 ≤ q)
    let m : Int := s.y.toInt * 2 ^ 32 + ((reg s rs1).toNat : Int)
    let k : Int := m.tdiv d.toInt
    let sres := BitVec.ofInt 32 (max (-(2 ^ 31)) (min k (2 ^ 31 - 1)))
    let sover :=
      decide (k < -(2 ^ 31)) || decide (2 ^ 31 ≤ k)
        || (s.cfg.sdivMethodB && decide (k = -(2 ^ 31)) && decide (m.tmod d.toInt ≠ 0))
    let icc (r : Word) (ovf : Bool) : Icc := ⟨r.getLsbD 31, decide (r = 0#32), ovf, false⟩
    (d ≠ 0#32 →
      WritesReg (exec (.udiv rd rs1 o) s) s rd ures s.psr.icc ∧
        WritesReg (exec (.sdiv rd rs1 o) s) s rd sres s.psr.icc ∧
          WritesReg (exec (.udivcc rd rs1 o) s) s rd ures (icc ures uover) ∧
            WritesReg (exec (.sdivcc rd rs1 o) s) s rd sres (icc sres sover)) ∧
    (d = 0#32 →
      Traps (exec (.udiv rd rs1 o) s) .divisionByZero s ∧
        Traps (exec (.sdiv rd rs1 o) s) .divisionByZero s ∧
          Traps (exec (.udivcc rd rs1 o) s) .divisionByZero s ∧
            Traps (exec (.sdivcc rd rs1 o) s) .divisionByZero s)

/-! ### Control transfer -/

/-- The sixteen Bicc: taken by the test of icc of their row; the delay instruction is annulled if a = 1 and the
branch is not taken, or is BA (42_control_transfer.md section 2; Table 5-6 of section 1). -/
def Obligations.IntegerBranches : Prop :=
  ∀ (s : State) (a : Bool) (d : BitVec 22),
    let c := s.psr.icc
    let conditional (i : Instr) (test : Bool) : Prop := Branches (exec i s) s test (!test && a) d
    Branches (exec (.ba a d) s) s true a d ∧ Branches (exec (.bn a d) s) s false a d ∧
      conditional (.bne a d) (!c.z) ∧ conditional (.be a d) c.z ∧
        conditional (.bg a d) (!(c.z || (c.n ^^ c.v))) ∧ conditional (.ble a d) (c.z || (c.n ^^ c.v)) ∧
          conditional (.bge a d) (!(c.n ^^ c.v)) ∧ conditional (.bl a d) (c.n ^^ c.v) ∧
            conditional (.bgu a d) (!(c.c || c.z)) ∧ conditional (.bleu a d) (c.c || c.z) ∧
              conditional (.bcc a d) (!c.c) ∧ conditional (.bcs a d) c.c ∧
                conditional (.bpos a d) (!c.n) ∧ conditional (.bneg a d) c.n ∧
                  conditional (.bvc a d) (!c.v) ∧ conditional (.bvs a d) c.v

/-- The sixteen FBfcc with the FPU ready and working on no comparison: taken by the test of fcc of their row;
annulling as for Bicc (42_control_transfer.md section 3). In the window behind an FPop2 or LDFSR an FBfcc still
completes: the fcc it tests is a free value, the same for every condition, one value is drawn, and nothing else
changes (70_reset_and_hazards.md section 4; the window's count and the form of the free value are the model's
choice, log 11, log 40). -/
def Obligations.FloatingBranches : Prop :=
  ∀ (s : State) (a : Bool) (d : BitVec 22), FpuReady s → Independent s FpWork.compares →
    ∃ fcc : BitVec 2, (s.fccWindow = 0 → fcc = s.fsr.fcc) ∧
      let e := decide (fcc = 0#2)
      let l := decide (fcc = 1#2)
      let g := decide (fcc = 2#2)
      let u := decide (fcc = 3#2)
      let branches (i : Instr) (test annuls : Bool) : Prop :=
        Completes (exec i s) fun t =>
          MemoryKept s t ∧
            t = { s with
              pc := s.npc
              npc := if test then s.pc + 4#32 * d.signExtend 32 else s.npc + 4#32
              annul := s.annul || annuls
              freeDraws := if s.fccWindow = 0 then s.freeDraws else s.freeDraws + 1 }
      let conditional (i : Instr) (test : Bool) : Prop := branches i test (!test && a)
      branches (.fba a d) true a ∧ branches (.fbn a d) false a ∧
        conditional (.fbu a d) u ∧ conditional (.fbg a d) g ∧ conditional (.fbug a d) (g || u) ∧
          conditional (.fbl a d) l ∧ conditional (.fbul a d) (l || u) ∧
            conditional (.fblg a d) (l || g) ∧ conditional (.fbne a d) (l || g || u) ∧
              conditional (.fbe a d) e ∧ conditional (.fbue a d) (e || u) ∧
                conditional (.fbge a d) (e || g) ∧ conditional (.fbuge a d) (e || g || u) ∧
                  conditional (.fble a d) (e || l) ∧ conditional (.fbule a d) (e || l || u) ∧
                    conditional (.fbo a d) (e || l || g)

/-- The sixteen CBccc with a coprocessor that is present and enabled: if it raises no exception, taken by the
test of its condition codes of their row, annulling as for Bicc; else the cp_exception trap, the coprocessor's
state being its own matter. With an exception of the coprocessor outstanding every one of them takes that, and
nothing else comes of it (42_control_transfer.md section 4; 60_exceptions.md R720; log 16). -/
def Obligations.CoprocessorBranches : Prop :=
  ∀ (s : State) (a : Bool) (d : BitVec 22), ecOn s = true →
    let c0 := decide (s.cp.cc = 0#2)
    let c1 := decide (s.cp.cc = 1#2)
    let c2 := decide (s.cp.cc = 2#2)
    let c3 := decide (s.cp.cc = 3#2)
    let excepts (i : Instr) (cond : BitVec 4) : Prop :=
      (s.cpPending = true → Traps (exec i s) .cpException s) ∧
        (s.cpPending = false → s.now.cpException = true →
          Traps (exec i s) .cpException { s with cp := Config.cpNext (.branch cond) s.cp })
    let always (i : Instr) (cond : BitVec 4) (test annuls : Bool) : Prop :=
      (s.cpPending = false → s.now.cpException = false → Branches (exec i s) s test annuls d) ∧ excepts i cond
    let conditional (i : Instr) (cond : BitVec 4) (test : Bool) : Prop := always i cond test (!test && a)
    always (.cba a d) 8#4 true a ∧ always (.cbn a d) 0#4 false a ∧
      conditional (.cb3 a d) 7#4 c3 ∧ conditional (.cb2 a d) 6#4 c2 ∧
        conditional (.cb23 a d) 5#4 (c2 || c3) ∧ conditional (.cb1 a d) 4#4 c1 ∧
          conditional (.cb13 a d) 3#4 (c1 || c3) ∧ conditional (.cb12 a d) 2#4 (c1 || c2) ∧
            conditional (.cb123 a d) 1#4 (c1 || c2 || c3) ∧ conditional (.cb0 a d) 9#4 c0 ∧
              conditional (.cb03 a d) 10#4 (c0 || c3) ∧ conditional (.cb02 a d) 11#4 (c0 || c2) ∧
                conditional (.cb023 a d) 12#4 (c0 || c2 || c3) ∧
                  conditional (.cb01 a d) 13#4 (c0 || c1) ∧
                    conditional (.cb013 a d) 14#4 (c0 || c1 || c3) ∧
                      conditional (.cb012 a d) 15#4 (c0 || c1 || c2)

/-- SAVE and RESTORE: if WIM allows the new window, the sum of the operands read in the old window goes into
r[rd] of the new one and CWP moves by one modulo NWINDOWS; else the window trap, nothing changed before it
(42_control_transfer.md section 5). -/
def Obligations.SaveRestoreResults : Prop :=
  ∀ (s : State) (rd rs1 : RegNum) (o : Operand2),
    let v := reg s rs1 + operand2 s o
    let below := BitVec.ofNat 5 ((s.psr.cwp.toNat + s.cfg.nwindows - 1) % s.cfg.nwindows)
    let above := BitVec.ofNat 5 ((s.psr.cwp.toNat + 1) % s.cfg.nwindows)
    let moves (out : Host.Outcome State Fault Refusal) (cwp : BitVec 5) : Prop :=
      Completes out fun t =>
        RegsWritten s t cwp [(rd, v)] ∧ MemoryKept s t ∧
          t = { s with
            pc := s.npc, npc := s.npc + 4#32, globals := t.globals, windowed := t.windowed
            psr := { s.psr with cwp := cwp } }
    ((wimWord s).getLsbD below.toNat = false → moves (exec (.save rd rs1 o) s) below) ∧
      ((wimWord s).getLsbD below.toNat = true → Traps (exec (.save rd rs1 o) s) .windowOverflow s) ∧
        ((wimWord s).getLsbD above.toNat = false → moves (exec (.restore rd rs1 o) s) above) ∧
          ((wimWord s).getLsbD above.toNat = true →
            Traps (exec (.restore rd rs1 o) s) .windowUnderflow s)

/-- CALL writes its address into r[15] and goes to PC + 4 * disp30; JMPL writes its address into r[rd] and goes
to the effective address, or traps if that is not word-aligned; both after the delay instruction
(42_control_transfer.md section 6). -/
def Obligations.CallAndJumpResults : Prop :=
  ∀ (s : State) (disp : BitVec 30) (rd rs1 : RegNum) (o : Operand2),
    let target := effectiveAddress s rs1 o
    let links (out : Host.Outcome State Fault Refusal) (link : RegNum) (target : Word) : Prop :=
      Completes out fun t =>
        RegsWritten s t s.psr.cwp [(link, s.pc)] ∧ MemoryKept s t ∧
          t = { s with
            pc := s.npc, npc := target, globals := t.globals, windowed := t.windowed }
    links (exec (.call disp) s) 15#5 (s.pc + 4#32 * disp.setWidth 32) ∧
      (target.toNat % 4 = 0 → links (exec (.jmpl rd rs1 o) s) rd target) ∧
        (target.toNat % 4 ≠ 0 → Traps (exec (.jmpl rd rs1 o) s) .memAddressNotAligned s)

/-- RETT: with traps disabled, in supervisor mode, a valid window and an aligned target it sets ET, restores S
from PS, moves to window CWP + 1 and goes to the target after the delay instruction; every other register and
memory is as before. With traps disabled and a failing check the delayed writes commit and it enters error_mode
with the trap type of the check in tt: privileged_instruction, window_underflow, mem_address_not_aligned, in
that order, each by the values before. With traps enabled it traps (42_control_transfer.md section 7). R541
takes no trap there and R745 freezes the state: that the delayed writes commit even so, and their hazard ends,
is the model's reading of R820 and R745 (log 7, log 6). -/
def Obligations.ReturnFromTrap : Prop :=
  ∀ (s : State) (rs1 : RegNum) (o : Operand2),
    let out := exec (.rett rs1 o) s
    let target := effectiveAddress s rs1 o
    let above := BitVec.ofNat 5 ((s.psr.cwp.toNat + 1) % s.cfg.nwindows)
    let invalid := (wimWord s).getLsbD above.toNat
    let fails (tt : BitVec 8) : Prop :=
      let u := commitPending s
      out = .next { u with mode := .error, pbError := true, tbr := { u.tbr with tt := tt } }
    (s.psr.et = false → s.psr.s = true → invalid = false → target.toNat % 4 = 0 →
      Completes out fun t =>
        MemoryKept s t ∧
          t = { s with
            psr := { s.psr with et := true, s := s.psr.ps, cwp := above }
            pc := s.npc, npc := target }) ∧
    (s.psr.et = false →
      (s.psr.s = false → fails 0x03#8) ∧ (s.psr.s = true → invalid = true → fails 0x06#8) ∧
        (s.psr.s = true → invalid = false → target.toNat % 4 ≠ 0 → fails 0x07#8)) ∧
    (s.psr.et = true → s.psr.s = true → Traps out .illegalInstruction s) ∧
    (s.psr.et = true → s.psr.s = false → Traps out .privilegedInstruction s)

/-- The sixteen Ticc: the trap_instruction trap with the trap number of the operands if the test of icc of their
row holds, else only PC and nPC go on (42_control_transfer.md section 8). -/
def Obligations.SoftwareTraps : Prop :=
  ∀ (s : State) (rs1 : RegNum) (o : TrapOperand),
    let c := s.psr.icc
    let tests (i : Instr) (test : Bool) : Prop :=
      (test = true → Traps (exec i s) (.trapInstruction (trapNumber s rs1 o)) s ∧
        trapType (.trapInstruction (trapNumber s rs1 o)) = 128#8 + (trapNumber s rs1 o).setWidth 8) ∧
        (test = false → WritesRegs (exec i s) s [] s.psr.icc s.y)
    tests (.ta rs1 o) true ∧ tests (.tn rs1 o) false ∧ tests (.tne rs1 o) (!c.z) ∧
      tests (.te rs1 o) c.z ∧ tests (.tg rs1 o) (!(c.z || (c.n ^^ c.v))) ∧
        tests (.tle rs1 o) (c.z || (c.n ^^ c.v)) ∧ tests (.tge rs1 o) (!(c.n ^^ c.v)) ∧
          tests (.tl rs1 o) (c.n ^^ c.v) ∧ tests (.tgu rs1 o) (!(c.c || c.z)) ∧
            tests (.tleu rs1 o) (c.c || c.z) ∧ tests (.tcc rs1 o) (!c.c) ∧ tests (.tcs rs1 o) c.c ∧
              tests (.tpos rs1 o) (!c.n) ∧ tests (.tneg rs1 o) c.n ∧ tests (.tvc rs1 o) (!c.v) ∧
                tests (.tvs rs1 o) c.v

/-! ### Traps -/

/-- Taking a trap with traps enabled: ET = 0, PS = S, S = 1, CWP - 1 modulo NWINDOWS without a test of WIM; PC
and nPC, or nPC and nPC + 4 if the next instruction is annulled, in r[17] and r[18] of the new window; tt, the
number that Table 7-1 gives the exception, each spelled out (60_exceptions.md R705, R726, R730, R734); PC = TBR
and nPC = TBR + 4; annul = 0; nothing else, but that an fp_exception records ftt and, for an IEEE_754_exception,
cexc, that a deferred one loads the FQ and puts the FPU in the fp_exception state, and that with a cp_exception
no exception of the coprocessor is outstanding (60_exceptions.md sections 4, 6 and 8). With traps disabled it
enters error_mode and asserts pb_error; nothing else changes, tt, PC and nPC among it (section 7); what the
instruction has changed before its trap is kept, the model's choice (log 7), and that tt is unwritten also for a
RETT that is unimplemented or meets a machine check is log 44's; R541's three checks are ReturnFromTrap's. This
is where nothing is pending of the delayed writes; what is commits first, in order, and the trap then uses the
committed values (70_reset_and_hazards.md R820). That the FQ takes the FPop that raised the deferred exception
and all those behind it is the model's reading of R755 (log 14); that the hazard of the writes before the trap
ends is log 6's. -/
def Obligations.TrapEntry : Prop :=
  (∀ (s : State) (x : Trap),
    takeTrap x s = takeTrap x (commitPending s) ∧ (commitPending s).pending = [] ∧
      (s.pending = [] → commitPending s = { s with recentWrites := [] }) ∧
      ∀ (p : PendingWrite) (rest : List PendingWrite), s.pending = p :: rest →
        commitPending s = commitPending { commit s p with pending := rest }) ∧
  ∀ (s : State) (x : Trap), s.pending = [] →
    let t := takeTrap x s
    let cwp := BitVec.ofNat 5 ((s.psr.cwp.toNat + s.cfg.nwindows - 1) % s.cfg.nwindows)
    let tt : BitVec 8 :=
      match x with
      | .dataStoreError => 0x2B#8
      | .instructionAccessMmuMiss => 0x3C#8
      | .instructionAccessError => 0x21#8
      | .rRegisterAccessError => 0x20#8
      | .instructionAccessException => 0x01#8
      | .privilegedInstruction => 0x03#8
      | .illegalInstruction => 0x02#8
      | .fpDisabled => 0x04#8
      | .cpDisabled => 0x24#8
      | .unimplementedFlush => 0x25#8
      | .watchpointDetected => 0x0B#8
      | .windowOverflow => 0x05#8
      | .windowUnderflow => 0x06#8
      | .memAddressNotAligned => 0x07#8
      | .fpException _ => 0x08#8
      | .cpException => 0x28#8
      | .dataAccessError => 0x29#8
      | .dataAccessMmuMiss => 0x2C#8
      | .dataAccessException => 0x09#8
      | .tagOverflow => 0x0A#8
      | .divisionByZero => 0x2A#8
      | .trapInstruction n => BitVec.ofNat 8 (0x80 + n.toNat)
      | .interruptLevel n => BitVec.ofNat 8 (0x10 + n.toNat)
      | .implementationDependent n => BitVec.ofNat 8 (0x60 + n.toNat)
    let vector := BitVec.ofNat 32 (s.tbr.tba.toNat * 4096 + tt.toNat * 16)
    trapType x = tt ∧
    (s.psr.et = false → t = { s with mode := .error, pbError := true, recentWrites := [] }) ∧
    (s.psr.et = true →
      (RegsWritten s t cwp
          [(17#5, if s.annul then s.npc else s.pc),
            (18#5, if s.annul then s.npc + 4#32 else s.npc)] ∧
        MemoryKept s t ∧
          t = { s with
            psr := { s.psr with et := false, ps := s.psr.s, s := true, cwp := cwp }
            globals := t.globals, windowed := t.windowed
            tbr := { s.tbr with tt := tt }
            pc := vector, npc := vector + 4#32, annul := false, recentWrites := []
            cpPending := s.cpPending && decide (x ≠ .cpException)
            fsr := t.fsr, fpuMode := t.fpuMode, fpuQueue := t.fpuQueue, fq := t.fq }) ∧
      ((∀ r, x ≠ .fpException r) →
        t.fsr = s.fsr ∧ t.fpuMode = s.fpuMode ∧ t.fpuQueue = s.fpuQueue ∧ t.fq = s.fq) ∧
      (∀ r, x = .fpException r →
        t.fsr = { s.fsr with ftt := r.ftt, cexc := r.cexc.getD s.fsr.cexc } ∧
          ((∀ q, s.fpuMode ≠ .pending q) →
            t.fpuMode = s.fpuMode ∧ t.fpuQueue = s.fpuQueue ∧ t.fq = s.fq) ∧
            ((∃ q, s.fpuMode = .pending q) →
              t.fpuMode = .exception ∧ t.fpuQueue = [] ∧ t.fq = s.fq ++ s.fpuQueue.map FpWork.entry)))

/-- The privileged instructions in user mode take the privileged_instruction trap before any other check: the
alternate-space loads and stores (i = 1 too), STDFQ, STDCQ, RDPSR, RDWIM, RDTBR, WRPSR, WRWIM, WRTBR, and RDASR
and WRASR of any ASR that is privileged (60_exceptions.md section 4, privileged_instruction); RETT is
ReturnFromTrap's. -/
def Obligations.PrivilegedInUserMode : Prop :=
  ∀ (s : State) (rd rs1 : RegNum) (o : Operand2) (alt : AltOperand), s.psr.s = false →
    (∀ i ∈ [Instr.ldsba rd rs1 alt, .ldsha rd rs1 alt, .lduba rd rs1 alt, .lduha rd rs1 alt,
        .lda rd rs1 alt, .ldda rd rs1 alt, .stba rd rs1 alt, .stha rd rs1 alt, .sta rd rs1 alt,
        .stda rd rs1 alt, .ldstuba rd rs1 alt, .swapa rd rs1 alt, .stdfq rs1 o, .stdcq rs1 o, .rdpsr rd,
        .rdwim rd, .rdtbr rd, .wrpsr rs1 o, .wrwim rs1 o, .wrtbr rs1 o],
      Traps (exec i s) .privilegedInstruction s) ∧
    ∀ n : RegNum, s.cfg.asrPrivileged.getLsbD n.toNat = true →
      ∀ i ∈ [Instr.rdasr rd n, .wrasr n rs1 o], Traps (exec i s) .privilegedInstruction s

/-- The illegal_instruction trap: UNIMP and the patterns of no instruction always; the alternate-space
instructions with i = 1, and WRPSR with a window that does not exist, in supervisor mode; LDD and STD, and in
supervisor mode LDDA and STDA, with an odd rd where the implementation checks it; RDASR and WRASR of an ASR 16
to 31 that is not implemented, if it is not privileged or in supervisor mode (60_exceptions.md section 4,
illegal_instruction). -/
def Obligations.IllegalInstructions : Prop :=
  ∀ (s : State) (rd rs1 rs2 : RegNum) (o : Operand2) (low : BitVec 13) (asi : BitVec 8) (c : BitVec 22)
    (op2 : BitVec 3) (op3 : BitVec 6),
    let traps (xs : List Instr) : Prop := ∀ i ∈ xs, Traps (exec i s) .illegalInstruction s
    traps [.unimp c, .unassignedOp2 op2, .unassignedOp3Arith op3, .unassignedOp3Mem op3] ∧
    (s.psr.s = true →
      traps [.ldsba rd rs1 (.imm low), .ldsha rd rs1 (.imm low), .lduba rd rs1 (.imm low),
        .lduha rd rs1 (.imm low), .lda rd rs1 (.imm low), .ldda rd rs1 (.imm low),
        .stba rd rs1 (.imm low), .stha rd rs1 (.imm low), .sta rd rs1 (.imm low),
        .stda rd rs1 (.imm low), .ldstuba rd rs1 (.imm low), .swapa rd rs1 (.imm low)]) ∧
    (s.psr.s = true → s.cfg.nwindows ≤ (reg s rs1 ^^^ operand2 s o).toNat % 32 → traps [.wrpsr rs1 o]) ∧
    (s.cfg.oddRdLddTraps = true → rd.toNat % 2 = 1 →
      traps [.ldd rd rs1 o, .std rd rs1 o] ∧
        (s.psr.s = true → traps [.ldda rd rs1 (.reg asi rs2), .stda rd rs1 (.reg asi rs2)])) ∧
    (16 ≤ rd.toNat → s.cfg.asrImplemented.getLsbD (rd.toNat - 16) = false →
      s.cfg.asrPrivileged.getLsbD rd.toNat = false ∨ s.psr.s = true →
        traps [.wrasr rd rs1 o, .rdasr rs1 rd])

/-! ### State registers -/

/-- RDY, RDPSR, RDWIM, RDTBR and RDASR of an implemented ASR deliver the register's image; RDASR of ASR 1 to 15
delivers a free value (log 12), one value being drawn (log 40); the register read, icc and everything else are
unchanged (43_state_regs_misc.md section 1). That an implemented ASR reads as a plain 32-bit register is the
model's choice (log 13). -/
def Obligations.ReadStateRegisters : Prop :=
  ∀ (s : State) (rd n : RegNum),
    let p := s.psr
    let bit (b : Bool) (k : Nat) : Nat := if b then 2 ^ k else 0
    WritesReg (exec (.rdy rd) s) s rd s.y p.icc ∧
    (p.s = true →
      WritesReg (exec (.rdpsr rd) s) s rd
        (BitVec.ofNat 32
          (s.cfg.psrImpl.toNat * 2 ^ 28 + s.cfg.psrVer.toNat * 2 ^ 24 + bit p.icc.n 23 + bit p.icc.z 22
            + bit p.icc.v 21 + bit p.icc.c 20 + bit (p.ec && s.cfg.cpPresent) 13
            + bit (p.ef && s.cfg.fpuPresent) 12 + p.pil.toNat * 2 ^ 8 + bit p.s 7 + bit p.ps 6
            + bit p.et 5 + p.cwp.toNat)) p.icc ∧
      WritesReg (exec (.rdwim rd) s) s rd
        (BitVec.ofNat 32 (s.wim.toNat % 2 ^ s.cfg.nwindows)) p.icc ∧
      WritesReg (exec (.rdtbr rd) s) s rd
        (BitVec.ofNat 32 (s.tbr.tba.toNat * 4096 + s.tbr.tt.toNat * 16)) p.icc) ∧
    (∀ k : Fin 16, n.toNat = 16 + k.val → s.cfg.asrImplemented.getLsbD k.val = true →
      (s.cfg.asrPrivileged.getLsbD n.toNat = false ∨ p.s = true) →
        WritesReg (exec (.rdasr rd n) s) s rd s.asr[k] p.icc) ∧
    (n.toNat < 16 → (s.cfg.asrPrivileged.getLsbD n.toNat = false ∨ p.s = true) →
      Completes (exec (.rdasr rd n) s) fun t =>
        (∃ v, RegsWritten s t p.cwp [(rd, v)]) ∧ MemoryKept s t ∧
          t = { s with
            pc := s.npc, npc := s.npc + 4#32, globals := t.globals, windowed := t.windowed
            freeDraws := s.freeDraws + 1 })

/-- WRY, WRPSR, WRWIM, WRTBR and WRASR of an implemented ASR put r[rs1] xor operand2 at the end of the delayed
writes, or write it at once if WR_DELAY is 0, and change nothing else but that the write is remembered for its
hazard; WRASR of ASR 1 to 15 changes only PC and nPC (43_state_regs_misc.md section 2; log 5, log 6, log 12).
That an implemented ASR is written through the xor as a plain 32-bit register is the model's choice (log 13). -/
def Obligations.WriteStateRegisters : Prop :=
  ∀ (s : State) (rd rs1 : RegNum) (o : Operand2),
    let v := reg s rs1 ^^^ operand2 s o
    let delay := s.cfg.wrDelay.val
    let delays (i : Instr) (r : StateReg) : Prop :=
      let recent := s.recentWrites ++ [⟨r, changedFields s r v, 4⟩]
      (delay ≠ 0 →
        exec i s =
          .next { s with
            pc := s.npc, npc := s.npc + 4#32, pending := s.pending ++ [⟨r, v, delay + 1⟩]
            recentWrites := recent }) ∧
        (delay = 0 →
          exec i s =
            .next { commit s ⟨r, v, 0⟩ with pc := s.npc, npc := s.npc + 4#32, recentWrites := recent })
    delays (.wry rs1 o) .y ∧
    (s.psr.s = true →
      delays (.wrwim rs1 o) .wim ∧ delays (.wrtbr rs1 o) .tbr ∧
        (v.toNat % 32 < s.cfg.nwindows → delays (.wrpsr rs1 o) .psr)) ∧
    (s.cfg.asrPrivileged.getLsbD rd.toNat = false ∨ s.psr.s = true →
      (∀ k : Fin 16, rd.toNat = 16 + k.val → s.cfg.asrImplemented.getLsbD k.val = true →
        delays (.wrasr rd rs1 o) (.asr k)) ∧
      (rd.toNat < 16 → WritesRegs (exec (.wrasr rd rs1 o) s) s [] s.psr.icc s.y))

/-- A lone delayed write with countdown d + 1 is not seen for d turns of the instruction cycle and is committed
by the turn after them. What it then does: Y takes all bits; WIM those of windows that exist; TBR its TBA, tt
unchanged; an ASR all bits; PSR its writable fields, EC and EF zero without their unit; and no other field of
the state (70_reset_and_hazards.md section 4, of whose two sentences on WR_DELAY log 5 follows one;
43_state_regs_misc.md section 2). The write is remembered for three instructions, with the fields in which the
register, the writes before it committed, will differ. wr_hazard then holds of exactly the instructions that
read such a field or write a field of the same register, by the fields of their words: CWP is read by every one
that names a windowed register, CALL's r[15] among them, and by RDPSR, RETT, Ticc, SAVE and RESTORE; icc by
Bicc, Ticc, ADDX, SUBX, their cc forms, MULScc and RDPSR; Y by MULScc, the divisions and RDY; WIM by RDWIM,
SAVE, RESTORE and RETT; S by loads, stores and the privileged instructions; EF and EC by the instructions of
their units and RDPSR; PS and ET by RDPSR and RETT; PIL by RDPSR; TBA and an ASR by their reads. Y is written by
the multiplications and MULScc; the PSR by the cc forms, RETT, SAVE and RESTORE (70_reset_and_hazards.md R820,
43_state_regs_misc.md R575; the form is log 6's). -/
def Obligations.DelayedWriteTurns : Prop :=
  (∀ (s : State) (r : StateReg) (v : Word) (d n : Nat), s.pending = [⟨r, v, d + 1⟩] →
    (n ≤ d → tickTimes n s = { s with pending := [⟨r, v, d + 1 - n⟩] }) ∧
      tickTimes (d + 1) s = { commit s ⟨r, v, 0⟩ with pending := [] }) ∧
  ∀ (s : State) (v : Word) (n : Fin 16) (k : Nat),
    commit s ⟨.y, v, k⟩ = { s with y := v } ∧
    commit s ⟨.wim, v, k⟩ = { s with wim := BitVec.ofNat 32 (v.toNat % 2 ^ s.cfg.nwindows) } ∧
    commit s ⟨.tbr, v, k⟩ =
      { s with tbr := { s.tbr with tba := BitVec.ofNat 20 (v.toNat / 4096) } } ∧
    commit s ⟨.asr n, v, k⟩ = { s with asr := s.asr.set n v } ∧
    (let p := (commit s ⟨.psr, v, k⟩).psr
    p.icc = ⟨v.getLsbD 23, v.getLsbD 22, v.getLsbD 21, v.getLsbD 20⟩ ∧
      p.ec = (v.getLsbD 13 && s.cfg.cpPresent) ∧ p.ef = (v.getLsbD 12 && s.cfg.fpuPresent) ∧
        p.pil.toNat = v.toNat / 256 % 16 ∧ p.s = v.getLsbD 7 ∧ p.ps = v.getLsbD 6 ∧
          p.et = v.getLsbD 5 ∧ p.cwp.toNat = v.toNat % 32 ∧
            commit s ⟨.psr, v, k⟩ = { s with psr := p }) ∧
    (let c := changedFields s .psr v
    let a := effectivePsr s
    let p := (commit s ⟨.psr, v, k⟩).psr
    (StateField.cwp ∈ c ↔ p.cwp ≠ a.cwp) ∧ (StateField.icc ∈ c ↔ p.icc ≠ a.icc) ∧
      (StateField.et ∈ c ↔ p.et ≠ a.et) ∧ (StateField.s ∈ c ↔ p.s ≠ a.s) ∧
        (StateField.ps ∈ c ↔ p.ps ≠ a.ps) ∧ (StateField.pil ∈ c ↔ p.pil ≠ a.pil) ∧
          (StateField.ef ∈ c ↔ p.ef ≠ a.ef) ∧ (StateField.ec ∈ c ↔ p.ec ≠ a.ec)) ∧
    (let a := commitAll s
    (StateField.y ∈ changedFields s .y v ↔ a.y ≠ v) ∧
      (StateField.wim ∈ changedFields s .wim v ↔
        a.wim ≠ BitVec.ofNat 32 (v.toNat % 2 ^ s.cfg.nwindows)) ∧
      (StateField.tba ∈ changedFields s .tbr v ↔ a.tbr.tba ≠ BitVec.ofNat 20 (v.toNat / 4096)) ∧
      (StateField.asr n ∈ changedFields s (.asr n) v ↔ a.asr[n] ≠ v)) ∧
    (∀ (r : StateReg) (c : List StateField),
      Nat.iterate tickRecent 3 [⟨r, c, 4⟩] = [⟨r, c, 1⟩] ∧
        Nat.iterate tickRecent 4 [⟨r, c, 4⟩] = []) ∧
    ∀ i : Instr, i.wellFormed = true →
      let w := (encode i).toNat
      let op := w / 2 ^ 30
      let op2 := w / 2 ^ 22 % 8
      let op3 := w / 2 ^ 19 % 64
      let rd := w / 2 ^ 25 % 32
      let rs1 := w / 2 ^ 14 % 32
      let sources (n : Nat) : Prop := n = rs1 ∨ w / 2 ^ 13 % 2 = 0 ∧ n = w % 32
      let names (n : Nat) : Prop :=
        op = 1 ∧ n = 15 ∨ op = 0 ∧ op2 = 4 ∧ n = rd ∨ op = 3 ∧ (sources n ∨ op3 < 0x20 ∧ n = rd) ∨
          op = 2 ∧
            ((op3 < 0x28 ∨ 0x2C ≤ op3 ∧ op3 < 0x30 ∨ op3 = 0x38 ∨ 0x3C ≤ op3) ∧ (sources n ∨ n = rd) ∨
              0x28 ≤ op3 ∧ op3 ≤ 0x2B ∧ n = rd ∨
                (0x30 ≤ op3 ∧ op3 ≤ 0x33 ∨ 0x39 ≤ op3 ∧ op3 ≤ 0x3B) ∧ sources n)
      let arith (xs : List Nat) : Prop := op = 2 ∧ op3 ∈ xs
      let rdpsr := arith [0x29]
      let privileged :=
        arith [0x29, 0x2A, 0x2B, 0x31, 0x32, 0x33, 0x39] ∨
          arith [0x28] ∧ rs1 ≠ 0 ∧ ¬(rs1 = 15 ∧ rd = 0) ∧ s.cfg.asrPrivileged.getLsbD rs1 = true ∨
            arith [0x30] ∧ rd ≠ 0 ∧ s.cfg.asrPrivileged.getLsbD rd = true
      let reads (f : StateField) : Prop :=
        match f with
        | .cwp => (∃ n, 8 ≤ n ∧ names n) ∨ arith [0x29, 0x39, 0x3A, 0x3C, 0x3D]
        | .icc => op = 0 ∧ op2 = 2 ∨ arith [0x08, 0x0C, 0x18, 0x1C, 0x24, 0x29, 0x3A]
        | .y => arith [0x0E, 0x0F, 0x1E, 0x1F, 0x24] ∨ arith [0x28] ∧ rs1 = 0
        | .wim => arith [0x2A, 0x39, 0x3C, 0x3D]
        | .tba => arith [0x2B]
        | .asr k => arith [0x28] ∧ rs1 = 16 + k.val
        | .s => op = 3 ∨ privileged
        | .ef =>
          op = 0 ∧ op2 = 6 ∨ arith [0x34, 0x35] ∨ rdpsr ∨
            op = 3 ∧ op3 ∈ [0x20, 0x21, 0x23, 0x24, 0x25, 0x26, 0x27]
        | .ec =>
          op = 0 ∧ op2 = 7 ∨ arith [0x36, 0x37] ∨ rdpsr ∨
            op = 3 ∧ op3 ∈ [0x30, 0x31, 0x33, 0x34, 0x35, 0x36, 0x37]
        | .pil => rdpsr
        | .ps => rdpsr ∨ arith [0x39]
        | .et => rdpsr ∨ arith [0x39]
      let writes (r : StateReg) : Prop :=
        match r with
        | .y => arith [0x0A, 0x0B, 0x1A, 0x1B, 0x24]
        | .psr => arith [0x39, 0x3C, 0x3D] ∨ op = 2 ∧ 0x10 ≤ op3 ∧ op3 ≤ 0x24 ∧ op3 ≠ 0x19 ∧ op3 ≠ 0x1D
        | _ => False
      wrHazard s i = true ↔ ∃ x ∈ s.recentWrites, (∃ f ∈ x.changed, reads f) ∨ writes x.reg

/-- STBAR sets store_barrier_pending and nothing else; FLUSH, implemented in hardware, changes no register, flag
or memory, only the instruction buffer's copies of replaced words: those of the flushed doubleword, stored to by
its address or by another of the same place in memory, that no FLUSH has marked are marked with the delay, the
others are untouched, and once five more instructions have been executed no copy of the doubleword remains,
while an unmarked copy of another one does; the place is where the address is, or where it translates to. A
fetch draws one of the copies of its word that are left, or memory's word, freely, with an instruction buffer
that may be stale, and else memory's. Otherwise FLUSH takes the trap the implementation has
(43_state_regs_misc.md section 3; 20_memory.md R140, R141; the form of the copies, of the draw and of the delay
is log 27's). -/
def Obligations.BarrierAndFlush : Prop :=
  ∀ (s : State) (rs1 : RegNum) (o : Operand2),
    let address := (effectiveAddress s rs1 o).toNat
    let flushed (x : StaleWord) : Prop :=
      x.va.toNat / 8 = address / 8 ∨
        ∃ pa, physicalOf s (effectiveAddress s rs1 o) = some pa ∧ x.pa / 8 = pa / 8
    (∀ va : Word,
      (translating s = false → physicalOf s va = some va.toNat) ∧
        (translating s = true → ∀ asi store p k t, translateCached s .second asi va store = .ok p k t →
          physicalOf s va = some p.toNat)) ∧
    (∀ (pa : Nat) (w : Word),
      (s.cfg.ibufStale = false → fetchedWord s pa w = (w, s)) ∧
        (s.cfg.ibufStale = true →
          ∃ v, fetchedWord s pa w = (v, { s with freeDraws := s.freeDraws + 1 }) ∧
            (v = w ∨ ∃ x ∈ s.staleWords, x.pa = pa ∧ v = x.old))) ∧
    exec .stbar s =
      .next { s with pc := s.npc, npc := s.npc + 4#32, storeBarrierPending := true } ∧
    (s.cfg.flushImpl = .inHardware →
      Completes (exec (.flush rs1 o) s) fun t =>
        MemoryKept s t ∧
          t = { s with pc := s.npc, npc := s.npc + 4#32, staleWords := t.staleWords } ∧
          t.staleWords.length = s.staleWords.length ∧
          (∀ (k : Nat) (x y : StaleWord), s.staleWords[k]? = some x → t.staleWords[k]? = some y →
            (flushed x ∧ x.flushIn = none → y = { x with flushIn := some 6 }) ∧
              (¬(flushed x ∧ x.flushIn = none) → y = x)) ∧
          ((∀ x ∈ s.staleWords, ∀ k, x.flushIn = some k → k ≤ 6) →
            ∀ x ∈ Nat.iterate tickStale 6 t.staleWords, ¬flushed x) ∧
          ∀ x ∈ s.staleWords, ¬flushed x → x.flushIn = none →
            x ∈ Nat.iterate tickStale 6 t.staleWords) ∧
    (s.cfg.flushImpl = .trapsUnimplementedFlush →
      Traps (exec (.flush rs1 o) s) .unimplementedFlush s) ∧
    (s.cfg.flushImpl = .trapsIllegalInstruction →
      Traps (exec (.flush rs1 o) s) .illegalInstruction s)

/-! ### Memory -/

/-- Big-endian byte order: a word or halfword stored at an address puts byte k, k = 0 the most significant, at
the address plus k; the halfword at a word's address is its high half and the one two bytes on its low half; a
doubleword's more significant word is the one at its address (20_memory.md R101). -/
def Obligations.BigEndianByteOrder : Prop :=
  ∀ (m : Memory) (a : Nat) (v u : Word),
    let w := m.write a v .word
    let h := m.write a v .half
    let d := (m.write a v .dword).write (a + 4) u .dword
    (w.read8 a = v.extractLsb' 24 8 ∧ w.read8 (a + 1) = v.extractLsb' 16 8 ∧
      w.read8 (a + 2) = v.extractLsb' 8 8 ∧ w.read8 (a + 3) = v.extractLsb' 0 8) ∧
    (h.read8 a = v.extractLsb' 8 8 ∧ h.read8 (a + 1) = v.extractLsb' 0 8 ∧
      h.read8 (a + 2) = m.read8 (a + 2)) ∧
    (w.read a .byte = BitVec.ofNat 32 (v.toNat / 2 ^ 24) ∧
      w.read a .half = BitVec.ofNat 32 (v.toNat / 2 ^ 16) ∧
        w.read (a + 2) .half = BitVec.ofNat 32 (v.toNat % 2 ^ 16) ∧ w.read a .word = v) ∧
    (d.read a .dword = v ∧ d.read (a + 4) .dword = u ∧ d.read8 a = v.extractLsb' 24 8 ∧
      d.read8 (a + 7) = u.extractLsb' 0 8)

/-- LDSB, LDUB, LDSH, LDUH, LD and LDD, and their alternate-space forms in supervisor mode, on real memory:
the byte, halfword or word at the physical address, most significant byte first, sign- or zero-extended into
r[rd]; the two words of a doubleword into the even and the odd register of the pair; icc, memory and everything
else unchanged (40_load_store.md section 2). The physical address is the virtual one, or the one the MMU
translates it to (21_reference_mmu.md R203), a doubleword by one translation; `t` is then the state that the
translation leaves. -/
def Obligations.LoadResults : Prop :=
  ∀ (s t : State) (rd rs1 rs2 : RegNum) (o : Operand2) (asi : BitVec 8) (pa : Nat),
    let data : BitVec 8 := if s.psr.s then 0x0B#8 else 0x0A#8
    let address := effectiveAddress s rs1 o
    let alt := AltOperand.reg asi rs2
    let altAddress := reg s rs1 + reg s rs2
    let loads (i : Instr) (v : Word) : Prop := WritesReg (exec i s) t rd v s.psr.icc
    let loadsPair (i : Instr) : Prop :=
      WritesRegs (exec i s) t
        [(BitVec.ofNat 5 (rd.toNat / 2 * 2), wordAt t pa),
          (BitVec.ofNat 5 (rd.toNat / 2 * 2 + 1), wordAt t (pa + 4))] s.psr.icc s.y
    let byte := t.mem.read8 pa
    (ReadAccess s data address .byte pa t →
      loads (.ldub rd rs1 o) (byte.setWidth 32) ∧ loads (.ldsb rd rs1 o) (byte.signExtend 32)) ∧
    (ReadAccess s data address .half pa t →
      loads (.lduh rd rs1 o) ((halfAt t pa).setWidth 32) ∧
        loads (.ldsh rd rs1 o) ((halfAt t pa).signExtend 32)) ∧
    (ReadAccess s data address .word pa t → loads (.ld rd rs1 o) (wordAt t pa)) ∧
    (ReadAccess s data address .dword pa t → s.cfg.oddRdLddTraps = false ∨ rd.toNat % 2 = 0 →
      loadsPair (.ldd rd rs1 o)) ∧
    (s.psr.s = true →
      (ReadAccess s asi altAddress .byte pa t →
        loads (.lduba rd rs1 alt) (byte.setWidth 32) ∧
          loads (.ldsba rd rs1 alt) (byte.signExtend 32)) ∧
      (ReadAccess s asi altAddress .half pa t →
        loads (.lduha rd rs1 alt) ((halfAt t pa).setWidth 32) ∧
          loads (.ldsha rd rs1 alt) ((halfAt t pa).signExtend 32)) ∧
      (ReadAccess s asi altAddress .word pa t → loads (.lda rd rs1 alt) (wordAt t pa)) ∧
      (ReadAccess s asi altAddress .dword pa t → s.cfg.oddRdLddTraps = false ∨ rd.toNat % 2 = 0 →
        loadsPair (.ldda rd rs1 alt)))

/-- STB, STH, ST and STD, and their alternate-space forms in supervisor mode, on real memory: the low byte, low
halfword or word of r[rd], most significant byte first, or the even and then the odd register of the pair, stand
at the physical address; every other byte, every register and everything else is unchanged, but that an
instruction buffer that may be stale keeps the words replaced (40_load_store.md section 5; `CopiesKept`, log
27). The physical address is the virtual one, or the one the MMU translates it to (21_reference_mmu.md R203), a
doubleword by one translation; `t` is then the state that the translation leaves. -/
def Obligations.StoreResults : Prop :=
  ∀ (s t : State) (rd rs1 rs2 : RegNum) (o : Operand2) (asi : BitVec 8) (pa : Nat),
    let data : BitVec 8 := if s.psr.s then 0x0B#8 else 0x0A#8
    let address := effectiveAddress s rs1 o
    let alt := AltOperand.reg asi rs2
    let altAddress := reg s rs1 + reg s rs2
    let v := reg s rd
    let pair :=
      bytesOfWord (reg s (BitVec.ofNat 5 (rd.toNat / 2 * 2)))
        ++ bytesOfWord (reg s (BitVec.ofNat 5 (rd.toNat / 2 * 2 + 1)))
    let stores (i : Instr) (xs : List Byte) : Prop := Stores (exec i s) t address pa xs []
    let storesAlt (i : Instr) (xs : List Byte) : Prop := Stores (exec i s) t altAddress pa xs []
    (WriteAccess s data address .byte pa t → stores (.stb rd rs1 o) [v.extractLsb' 0 8]) ∧
    (WriteAccess s data address .half pa t →
      stores (.sth rd rs1 o) [v.extractLsb' 8 8, v.extractLsb' 0 8]) ∧
    (WriteAccess s data address .word pa t → stores (.st rd rs1 o) (bytesOfWord v)) ∧
    (WriteAccess s data address .dword pa t → s.cfg.oddRdLddTraps = false ∨ rd.toNat % 2 = 0 →
      stores (.std rd rs1 o) pair) ∧
    (s.psr.s = true →
      (WriteAccess s asi altAddress .byte pa t → storesAlt (.stba rd rs1 alt) [v.extractLsb' 0 8]) ∧
      (WriteAccess s asi altAddress .half pa t →
        storesAlt (.stha rd rs1 alt) [v.extractLsb' 8 8, v.extractLsb' 0 8]) ∧
      (WriteAccess s asi altAddress .word pa t → storesAlt (.sta rd rs1 alt) (bytesOfWord v)) ∧
      (WriteAccess s asi altAddress .dword pa t → s.cfg.oddRdLddTraps = false ∨ rd.toNat % 2 = 0 →
        storesAlt (.stda rd rs1 alt) pair))

/-- LDSTUB, SWAP and their alternate-space forms in supervisor mode, on real memory that no one blocks: r[rd]
takes the old byte or word, and memory takes 0xFF or the old r[rd]; while another holder blocks the memory the
instruction waits and nothing changes (40_load_store.md sections 8 and 9; the wait is log 38's). The physical
address is the virtual one, or the ones the MMU translates it to for the read and for the write, which leave `r`
and `t` (21_reference_mmu.md R203; that the write finds the page descriptor cache as the read left it is the
model's choice, log 17; what a stale instruction buffer keeps is log 27's). -/
def Obligations.AtomicResults : Prop :=
  ∀ (s r t : State) (rd rs1 rs2 : RegNum) (o : Operand2) (asi : BitVec 8) (pa qa : Nat),
    let data : BitVec 8 := if s.psr.s then 0x0B#8 else 0x0A#8
    let address := effectiveAddress s rs1 o
    let alt := AltOperand.reg asi rs2
    let altAddress := reg s rs1 + reg s rs2
    let byte (i : Instr) (va : Word) : Prop :=
      Stores (exec i s) t va qa [0xFF#8] [(rd, (r.mem.read8 pa).setWidth 32)]
    let word (i : Instr) (va : Word) : Prop :=
      Stores (exec i s) t va qa (bytesOfWord (reg s rd)) [(rd, wordAt r pa)]
    (s.blockByte = false ∧ s.blockWord = false →
      (AtomicAccess s data address .byte pa r qa t → byte (.ldstub rd rs1 o) address) ∧
      (AtomicAccess s data address .word pa r qa t → word (.swap rd rs1 o) address) ∧
      (s.psr.s = true →
        (AtomicAccess s asi altAddress .byte pa r qa t → byte (.ldstuba rd rs1 alt) altAddress) ∧
        (AtomicAccess s asi altAddress .word pa r qa t → word (.swapa rd rs1 alt) altAddress))) ∧
    (s.blockByte = true ∨ s.blockWord = true →
      exec (.ldstub rd rs1 o) s = .next s ∧
        (address.toNat % 4 = 0 → exec (.swap rd rs1 o) s = .next s) ∧
          (s.psr.s = true → exec (.ldstuba rd rs1 alt) s = .next s ∧
            (altAddress.toNat % 4 = 0 → exec (.swapa rd rs1 alt) s = .next s)))

/-- The mem_address_not_aligned trap, before any memory access: the halfword, word and doubleword forms on an
address that is not a multiple of their size, each where its earlier checks pass (40_load_store.md section
1). -/
def Obligations.MisalignedAddressesTrap : Prop :=
  ∀ (s : State) (rd rs1 rs2 : RegNum) (o : Operand2) (asi : BitVec 8),
    let a := (effectiveAddress s rs1 o).toNat
    let b := (reg s rs1 + reg s rs2).toNat
    let alt := AltOperand.reg asi rs2
    let traps (xs : List Instr) : Prop := ∀ i ∈ xs, Traps (exec i s) .memAddressNotAligned s
    let evenRd := s.cfg.oddRdLddTraps = false ∨ rd.toNat % 2 = 0
    (a % 2 ≠ 0 → traps [.ldsh rd rs1 o, .lduh rd rs1 o, .sth rd rs1 o]) ∧
    (a % 4 ≠ 0 → traps [.ld rd rs1 o, .st rd rs1 o, .swap rd rs1 o]) ∧
    (a % 8 ≠ 0 → evenRd → traps [.ldd rd rs1 o, .std rd rs1 o]) ∧
    (s.psr.s = true →
      (b % 2 ≠ 0 → traps [.ldsha rd rs1 alt, .lduha rd rs1 alt, .stha rd rs1 alt]) ∧
      (b % 4 ≠ 0 → traps [.lda rd rs1 alt, .sta rd rs1 alt, .swapa rd rs1 alt]) ∧
      (b % 8 ≠ 0 → evenRd → traps [.ldda rd rs1 alt, .stda rd rs1 alt])) ∧
    (efOn s = true →
      (a % 4 ≠ 0 → traps [.ldf rd rs1 o, .ldfsr rs1 o, .stf rd rs1 o, .stfsr rs1 o]) ∧
      (a % 8 ≠ 0 → traps [.lddf rd rs1 o, .stdf rd rs1 o]) ∧
      (a % 8 ≠ 0 → s.psr.s = true → traps [.stdfq rs1 o])) ∧
    (ecOn s = true →
      (a % 4 ≠ 0 → traps [.ldc rd rs1 o, .ldcsr rs1 o, .stc rd rs1 o, .stcsr rs1 o]) ∧
      (a % 8 ≠ 0 → traps [.lddc rd rs1 o, .stdc rd rs1 o]) ∧
      (a % 8 ≠ 0 → s.psr.s = true → traps [.stdcq rs1 o]))

/-- An access that goes nowhere, an unmapped physical address or an address space that is none, and one whose
translation faults or leads to an unmapped physical address, raise the access exception: data_access_exception
for every aligned load, store, doubleword, atomic, floating-point and coprocessor access, in the state of the
first access or that its translation leaves (a store has carried out the pending STBAR, a floating-point load
may have put FP_LOAD_FAULT_VALUE into its registers), and for an atomic whose write fails behind its read;
instruction_access_exception for a fetch, taken in the state that has turned (20_memory.md sections 2 and 4,
R115, R135; 21_reference_mmu.md R182, R192; 40_load_store.md R335, R375). No machine check is presented. That
unmapped addresses and undefined spaces trap are D12 and D11 of the spec as log 39 and log 25 take them; how the
write of an atomic is translated is the model's choice (log 17, and behind a suppressed read log 26), and so is
that FP_LOAD_FAULT_VALUE stays in the registers in error_mode (log 7). -/
def Obligations.AccessExceptions : Prop :=
  ∀ (s : State) (rd rs1 rs2 : RegNum) (o : Operand2) (asi : BitVec 8),
    let data : BitVec 8 := if s.psr.s then 0x0B#8 else 0x0A#8
    let address := effectiveAddress s rs1 o
    let alt := AltOperand.reg asi rs2
    let altAddress := reg s rs1 + reg s rs2
    let even := BitVec.ofNat 5 (rd.toNat / 2 * 2)
    let odd := BitVec.ofNat 5 (rd.toNat / 2 * 2 + 1)
    let evenRd := s.cfg.oddRdLddTraps = false ∨ rd.toNat % 2 = 0
    let reads (space : BitVec 8) (a : Word) (z : Size) (xs : List Instr) : Prop :=
      ∀ t, LoadFails s space a z t → ∀ i ∈ xs, Traps (exec i s) .dataAccessException t
    let writes (space : BitVec 8) (a : Word) (z : Size) (xs : List Instr) : Prop :=
      ∀ t, StoreFails s space a z t → ∀ i ∈ xs, Traps (exec i s) .dataAccessException t
    let atomics (space : BitVec 8) (a : Word) (z : Size) (i : Instr) : Prop :=
      s.blockByte = false → s.blockWord = false →
        reads space a z [i] ∧
          ∀ p r, LoadAt s p space a z r →
            ∃ v u, Delivers p r space z false v u ∧
              ∀ t, WriteHalfFails u space a z t → Traps (exec i s) .dataAccessException t
    (reads data address .byte [.ldub rd rs1 o, .ldsb rd rs1 o] ∧ writes data address .byte [.stb rd rs1 o] ∧
      atomics data address .byte (.ldstub rd rs1 o)) ∧
    (reads data address .half [.lduh rd rs1 o, .ldsh rd rs1 o] ∧ writes data address .half [.sth rd rs1 o]) ∧
    (reads data address .word [.ld rd rs1 o] ∧ writes data address .word [.st rd rs1 o] ∧
      atomics data address .word (.swap rd rs1 o)) ∧
    (evenRd → reads data address .dword [.ldd rd rs1 o] ∧ writes data address .dword [.std rd rs1 o]) ∧
    (s.psr.s = true →
      (reads asi altAddress .byte [.lduba rd rs1 alt, .ldsba rd rs1 alt] ∧
        writes asi altAddress .byte [.stba rd rs1 alt] ∧ atomics asi altAddress .byte (.ldstuba rd rs1 alt)) ∧
      (reads asi altAddress .half [.lduha rd rs1 alt, .ldsha rd rs1 alt] ∧
        writes asi altAddress .half [.stha rd rs1 alt]) ∧
      (reads asi altAddress .word [.lda rd rs1 alt] ∧ writes asi altAddress .word [.sta rd rs1 alt] ∧
        atomics asi altAddress .word (.swapa rd rs1 alt)) ∧
      (evenRd → reads asi altAddress .dword [.ldda rd rs1 alt] ∧ writes asi altAddress .dword [.stda rd rs1 alt])) ∧
    (FpuReady s → s.fpuQueue = [] →
      let loads (z : Size) (i : Instr) (dests : List RegNum) : Prop :=
        ∀ t, LoadFails s data address z t →
          ∃ u, Traps (exec i s) .dataAccessException u ∧ u = { t with fregs := u.fregs } ∧
            FregsWritten t u
              (match s.cfg.fpLoadFaultValue with
              | none => []
              | some v => dests.map fun n => (n, v))
      loads .word (.ldf rd rs1 o) [rd] ∧ loads .word (.ldfsr rs1 o) [] ∧
        writes data address .word [.stf rd rs1 o, .stfsr rs1 o] ∧
        (s.cfg.misalignedFregTraps = false ∨ rd.toNat % 2 = 0 →
          loads .dword (.lddf rd rs1 o) [even, odd] ∧ writes data address .dword [.stdf rd rs1 o])) ∧
    (efOn s = true → (∀ r, s.fpuMode ≠ .pending r) → s.fpuQueue = [] → s.psr.s = true →
      s.cfg.fqPresent = true → s.fq ≠ [] → writes data address .dword [.stdfq rs1 o]) ∧
    (ecOn s = true → s.cpPending = false → s.now.cpException = false →
      (reads data address .word [.ldc rd rs1 o, .ldcsr rs1 o] ∧
        writes data address .word [.stc rd rs1 o, .stcsr rs1 o]) ∧
      (reads data address .dword [.lddc rd rs1 o] ∧ writes data address .dword [.stdc rd rs1 o]) ∧
      (s.psr.s = true → s.cfg.cqPresent = true → s.cp.cq ≠ [] → writes data address .dword [.stdcq rs1 o])) ∧
    (s.mode = .execute → (takeInputs s).now = Inputs.quiet → s.annul = false → translating s = false →
      regionKind s.cfg (fetchAsi (turn (takeInputs s))) s.pc.toNat = .unmapped →
        Traps (step s) .instructionAccessException (turn (takeInputs s)))

/-- Integer loads, stores and atomics, and their alternate-space forms in supervisor mode, that take place
elsewhere than in real memory, by the words of `Delivers` and `Puts`. At an I/O location, in a region of
MEMORY_MAP, under a PTE that makes one of it, or in a device's address space, the accesses are performed behind
those before them, in program order, with the environment's word or a free one (20_memory.md R119 to R121;
00_scope.md R13; log 39, log 40, log 42). Read-only memory is read as any, and a store changes nothing or raises
the access exception (log 41). Under a fault that NF = 1 suppresses a load delivers a free value and each word
of a store may or may not be stored (21_reference_mmu.md R182; log 18). A fetch of an I/O location delivers the
environment's word or a free one and is never served by the instruction buffer, which is the model's choice
(log 27); one of real and read-only memory, translated or not, the word there, or a copy of it that a stale
instruction buffer keeps (log 27). The first region that holds an address says what stands at
it. The write of an atomic finds the page descriptor cache as the read left it, and walks again behind a
suppressed read: the model's choice (log 17, log 26). -/
def Obligations.AccessesElsewhere : Prop :=
  (∀ (s t : State) (rd rs1 rs2 : RegNum) (o : Operand2) (asi : BitVec 8) (p : Place),
    let data : BitVec 8 := if s.psr.s then 0x0B#8 else 0x0A#8
    let address := effectiveAddress s rs1 o
    let alt := AltOperand.reg asi rs2
    let altAddress := reg s rs1 + reg s rs2
    let even := BitVec.ofNat 5 (rd.toNat / 2 * 2)
    let odd := BitVec.ofNat 5 (rd.toNat / 2 * 2 + 1)
    let evenRd := s.cfg.oddRdLddTraps = false ∨ rd.toNat % 2 = 0
    let elsewhere (x : Place) : Prop := ∀ pa, x ≠ .memory pa
    let signByte (v : Word) : Word := (v.setWidth 8).signExtend 32
    let signHalf (v : Word) : Word := (v.setWidth 16).signExtend 32
    let loads (space : BitVec 8) (a : Word) (z : Size) (i : Instr) (extend : Word → Word) : Prop :=
      LoadAt s p space a z t →
        ∃ v u, Delivers p t space z false v u ∧ WritesReg (exec i s) u rd (extend v) s.psr.icc
    let loadsPair (space : BitVec 8) (a : Word) (i : Instr) : Prop :=
      LoadAt s p space a .dword t →
        ∃ v0 v1 u, DeliversPair p t space v0 v1 u ∧
          WritesRegs (exec i s) u [(even, v0), (odd, v1)] s.psr.icc s.y
    let stores (space : BitVec 8) (a : Word) (z : Size) (i : Instr) (vs : List Word) : Prop :=
      StoreAt s p space a z t → Puts p (exec i s) t space a z vs []
    let atomics (space : BitVec 8) (a : Word) (z : Size) (i : Instr) (v : Word) : Prop :=
      LoadAt s p space a z t →
        ∃ old u, Delivers p t space z false old u ∧
          ∀ q r, elsewhere p ∨ elsewhere q → WriteHalfAt u q space a z r →
            Puts q (exec i s) r space a z [v] [(rd, old)]
    let v := reg s rd
    let pair := [reg s even, reg s odd]
    (elsewhere p →
      (loads data address .byte (.ldub rd rs1 o) id ∧ loads data address .byte (.ldsb rd rs1 o) signByte ∧
        loads data address .half (.lduh rd rs1 o) id ∧ loads data address .half (.ldsh rd rs1 o) signHalf ∧
          loads data address .word (.ld rd rs1 o) id ∧ stores data address .byte (.stb rd rs1 o) [v] ∧
            stores data address .half (.sth rd rs1 o) [v] ∧ stores data address .word (.st rd rs1 o) [v] ∧
              (evenRd →
                loadsPair data address (.ldd rd rs1 o) ∧ stores data address .dword (.std rd rs1 o) pair)) ∧
      (s.psr.s = true →
        loads asi altAddress .byte (.lduba rd rs1 alt) id ∧
          loads asi altAddress .byte (.ldsba rd rs1 alt) signByte ∧
          loads asi altAddress .half (.lduha rd rs1 alt) id ∧
          loads asi altAddress .half (.ldsha rd rs1 alt) signHalf ∧
          loads asi altAddress .word (.lda rd rs1 alt) id ∧
          stores asi altAddress .byte (.stba rd rs1 alt) [v] ∧
          stores asi altAddress .half (.stha rd rs1 alt) [v] ∧
          stores asi altAddress .word (.sta rd rs1 alt) [v] ∧
          (evenRd →
            loadsPair asi altAddress (.ldda rd rs1 alt) ∧
              stores asi altAddress .dword (.stda rd rs1 alt) pair))) ∧
    (s.blockByte = false → s.blockWord = false →
      atomics data address .byte (.ldstub rd rs1 o) 0xFF#32 ∧ atomics data address .word (.swap rd rs1 o) v ∧
        (s.psr.s = true →
          atomics asi altAddress .byte (.ldstuba rd rs1 alt) 0xFF#32 ∧
            atomics asi altAddress .word (.swapa rd rs1 alt) v))) ∧
  (∀ (s t : State) (pa : Nat), s.now.machineCheck = none →
    let space : BitVec 8 := if s.psr.s then 0x09#8 else 0x08#8
    (translating s = false ∧ pa = s.pc.toNat ∧ t = s ∨
      translating s = true ∧ ∃ p k, translate s .fetch space s.pc false = .ok p k t ∧ p.toNat = pa) →
      let kind := locationKind t space s.pc pa
      (kind = .io →
        ∃ w, fetch s = .ok w { t with
            freeDraws := t.freeDraws + 1, ioTrace := t.ioTrace ++ [⟨false, space, pa, .word, w⟩] } ∧
          ∀ d, s.now.io = some d → w = d.fetch) ∧
        (kind = .realMemory ∨ kind = .rom →
          (s.cfg.ibufStale = false → fetch s = .ok (wordAt t pa) t) ∧
            (s.cfg.ibufStale = true →
              ∃ w, fetch s = .ok w { t with freeDraws := t.freeDraws + 1 } ∧
                (w = wordAt t pa ∨ ∃ x ∈ t.staleWords, x.pa = pa ∧ w = x.old)))) ∧
  (∀ (s : State) (asi : BitVec 8) (va : Word) (pa : Nat),
    translating s = false ∨ asi ∉ [0x08#8, 0x09#8, 0x0A#8, 0x0B#8] →
      locationKind s asi va pa = regionKind s.cfg asi pa) ∧
  ∀ (c : Config) (asi : BitVec 8) (pa : Nat),
    let holds (x : Region) : Prop := (x.asis = [] ∨ asi ∈ x.asis) ∧ x.base ≤ pa ∧ pa < x.base + x.size
    let width := if c.mmuPresent then 36 else 32
    (2 ^ width ≤ pa ∨ (∀ x ∈ c.memoryMap, ¬holds x) → regionKind c asi pa = .unmapped) ∧
      ∀ before x rest, c.memoryMap = before ++ x :: rest → pa < 2 ^ width → (∀ y ∈ before, ¬holds y) → holds x →
        regionKind c asi pa = x.kind

/-! ### Floating point -/

/-- LDF, LDDF and LDFSR with the FPU ready and working on no FPop that names the register (for LDFSR: on none),
wherever the access takes place, translated or not (`LoadAt`, `Delivers`): the word into f[rd]; the two words
into the even and odd f register of an even rd (or of any rd, if the FPU ignores the low bit); the fields RD,
TEM, fcc, aexc and cexc of the FSR from the word, NS too if it is storage, ver, ftt and qne unaffected; nothing
else but that the fcc hazard begins, whose count is the model's choice (40_load_store.md section 3; log 11; NS
log 36; I/O locations log 39, a suppressed fault log 18). What the same instructions do in the other states of
the FPU is FloatingSequence's and FloatingQueue's. -/
def Obligations.FloatingLoads : Prop :=
  ∀ (s t : State) (rd rs1 : RegNum) (o : Operand2) (p : Place), FpuReady s →
    let data : BitVec 8 := if s.psr.s then 0x0B#8 else 0x0A#8
    let address := effectiveAddress s rs1 o
    let loads (i : Instr) (u : State) (xs : List (RegNum × Word)) : Prop :=
      Completes (exec i s) fun x =>
        FregsWritten s x xs ∧ MemoryKept t x ∧
          x = { u with pc := s.npc, npc := s.npc + 4#32, fregs := x.fregs }
    let even := BitVec.ofNat 5 (rd.toNat / 2 * 2)
    let odd := BitVec.ofNat 5 (rd.toNat / 2 * 2 + 1)
    (LoadAt s p data address .word t → Independent s (fun x => x.touches rd) →
      ∃ v u, Delivers p t data .word false v u ∧ loads (.ldf rd rs1 o) u [(rd, v)]) ∧
    (LoadAt s p data address .dword t → s.cfg.misalignedFregTraps = false ∨ rd.toNat % 2 = 0 →
      Independent s (fun x => x.touches even || x.touches odd) →
        ∃ v0 v1 u, DeliversPair p t data v0 v1 u ∧ loads (.lddf rd rs1 o) u [(even, v0), (odd, v1)]) ∧
    (LoadAt s p data address .word t → s.fpuQueue = [] →
      ∃ v u, Delivers p t data .word false v u ∧
        exec (.ldfsr rs1 o) s =
          .next { u with
            pc := s.npc, npc := s.npc + 4#32, fccWindow := 4
            fsr :=
              { s.fsr with
                rd := BitVec.ofNat 2 (v.toNat / 2 ^ 30), tem := BitVec.ofNat 5 (v.toNat / 2 ^ 23)
                ns := v.getLsbD 22 && storesNs s.cfg
                fcc := BitVec.ofNat 2 (v.toNat / 2 ^ 10), aexc := BitVec.ofNat 5 (v.toNat / 2 ^ 5)
                cexc := BitVec.ofNat 5 v.toNat } })

/-- STF, STDF, STFSR and STDFQ with the FPU enabled, no exception pending and no FPop being worked on that reads
or writes the register (for STFSR and STDFQ: none), wherever the access takes place, translated or not
(`StoreAt`, `PutsAnd`): f[rd]; the even and the odd f register; the image of the FSR, ftt then zero; the front
entry of the queue, which leaves it, the FPU executing again when it becomes empty. STDFQ without a queue, or
with an empty one, is a sequence_error (40_load_store.md section 6; that STDFQ waits for the FPops, log 14; I/O
locations log 39, read-only memory log 41, a suppressed fault log 18, a stale instruction buffer log 27). -/
def Obligations.FloatingStores : Prop :=
  ∀ (s t : State) (rd rs1 : RegNum) (o : Operand2) (p : Place), efOn s = true →
    (∀ r, s.fpuMode ≠ .pending r) →
    let data : BitVec 8 := if s.psr.s then 0x0B#8 else 0x0A#8
    let address := effectiveAddress s rs1 o
    let image : Nat :=
      s.fsr.rd.toNat * 2 ^ 30 + s.fsr.tem.toNat * 2 ^ 23
        + (if s.fsr.ns && storesNs s.cfg then 2 ^ 22 else 0) + s.cfg.fsrVer.toNat * 2 ^ 17
        + s.fsr.ftt.toNat * 2 ^ 14 + (if s.fq = [] then 0 else 2 ^ 13) + s.fsr.fcc.toNat * 2 ^ 10
        + s.fsr.aexc.toNat * 2 ^ 5 + s.fsr.cexc.toNat
    let even := BitVec.ofNat 5 (rd.toNat / 2 * 2)
    let odd := BitVec.ofNat 5 (rd.toNat / 2 * 2 + 1)
    (StoreAt s p data address .word t → Independent s (fun x => x.touches rd) →
      Puts p (exec (.stf rd rs1 o) s) t data address .word [freg s rd] []) ∧
    (StoreAt s p data address .dword t → s.cfg.misalignedFregTraps = false ∨ rd.toNat % 2 = 0 →
      Independent s (fun x => x.touches even || x.touches odd) →
        Puts p (exec (.stdf rd rs1 o) s) t data address .dword [freg s even, freg s odd] []) ∧
    (s.fpuQueue = [] →
      (StoreAt s p data address .word t →
        PutsAnd p (exec (.stfsr rs1 o) s) t { t with fsr := { s.fsr with ftt := 0#3 } } data address .word
          [BitVec.ofNat 32 image] []) ∧
      (StoreAt s p data address .dword t → s.psr.s = true → s.cfg.fqPresent = true →
        ∀ (e : FqEntry) (rest : List FqEntry), s.fq = e :: rest →
          PutsAnd p (exec (.stdfq rs1 o) s) t
            { t with fq := rest, fpuMode := if rest = [] then .execute else s.fpuMode } data address .dword
            [e.address, e.instruction] []) ∧
      (address.toNat % 8 = 0 → s.psr.s = true → s.cfg.fqPresent = false ∨ s.fq = [] →
        Traps (exec (.stdfq rs1 o) s) (.fpException ⟨4#3, none⟩) s))

/-- The states of the FPU before a floating-point instruction that is enabled and aligned. With a deferred
exception pending every one takes it as its fp_exception; in the fp_exception state one other than a store is
not executed, and the FPU holds a sequence_error from then on (10_state.md R76; 60_exceptions.md R755; that the
IU goes on then is log 15's; that a pending exception goes by the ET of the instruction that takes it, log
14's). An odd rd of LDDF and STDF is invalid_fp_register where the implementation checks it, in either of the
other states (40_load_store.md R301, R337, R357). -/
def Obligations.FloatingSequence : Prop :=
  ∀ (s : State) (rd rs1 : RegNum) (o : Operand2), efOn s = true →
    let a := (effectiveAddress s rs1 o).toNat
    let loads (i : Instr) : Prop :=
      (i = .ldf rd rs1 o ∨ i = .ldfsr rs1 o) ∧ a % 4 = 0 ∨ i = .lddf rd rs1 o ∧ a % 8 = 0
    let stores (i : Instr) : Prop :=
      (i = .stf rd rs1 o ∨ i = .stfsr rs1 o) ∧ a % 4 = 0 ∨ i = .stdf rd rs1 o ∧ a % 8 = 0 ∨
        i = .stdfq rs1 o ∧ a % 8 = 0 ∧ s.psr.s = true
    let operates (i : Instr) : Prop :=
      i.wellFormed = true ∧ (isFbfcc i = true ∨ isFpopWord (encode i) = true) ∧
        ((∃ rd rs1 opf rs2, i = .fpop1Unassigned rd rs1 opf rs2 ∨ i = .fpop2Unassigned rd rs1 opf rs2) →
          s.cfg.reservedOpfIllegal = false)
    let odd := s.cfg.misalignedFregTraps = true ∧ rd.toNat % 2 = 1
    (∀ r, s.fpuMode = .pending r → ∀ i, loads i ∨ stores i ∨ operates i →
      Traps (exec i s) (.fpException r) s) ∧
    (s.fpuMode = .exception → ∀ i, loads i ∧ ¬(i = .lddf rd rs1 o ∧ odd) ∨ operates i →
      exec i s = .next { s with
        pc := s.npc, npc := s.npc + 4#32, fpuMode := .pending ⟨4#3, none⟩ }) ∧
    ((∀ r, s.fpuMode ≠ .pending r) → s.fpuQueue = [] → odd → a % 8 = 0 →
      ∀ i ∈ [Instr.lddf rd rs1 o, .stdf rd rs1 o], Traps (exec i s) (.fpException ⟨6#3, none⟩) s)

/-- With a queue the FPU works on FPops alongside the IU. When it ends the front one, that one comes to what
executing it comes to: an exception waits, nothing written, the FPop in front; else its result, of `fpStandard`,
which is the IEEE operation of each FPop, or of the implementation in nonstandard mode, is written and it
leaves. It ends them in order and none behind an exception. A floating-point load, store or branch waits for
those it depends on: it is the same instruction in the state in which they have ended, in which none is left or
an exception waits (10_state.md R75, R76; 44_fpop.md R602 to R604; 60_exceptions.md R702, R755; the form of the
FPU's work is log 14's, nonstandard mode log 36's; that an FPop
which the FPU does not implement raises unimplemented_FPop whatever its register numbers are, log 37's). -/
def Obligations.FloatingQueue : Prop :=
  (∀ (s : State) (w : FpWork) (ws : List FpWork), s.fpuMode = .execute → s.fpuQueue = w :: ws →
    let t := fpEndWork 1 s
    let waits (ftt : BitVec 3) (cexc : Option (BitVec 5)) : Prop :=
      t = { s with fpuMode := .pending ⟨ftt, cexc⟩ }
    let bits (f : Option FpFormat) (n : RegNum) : Nat :=
      match f with
      | none => 0
      | some f => fpOperand s f n
    let a := bits w.op.formats.1 w.rs1
    let b := bits w.op.formats.2.1 w.rs2
    let outcome (event : Option FpuEvent) (x : Nat × BitVec 5) : Prop :=
      FpCases s event (w.sources ++ w.results) x.2 waits
        (FregsWritten s t
            (match w.op.formats.2.2 with
            | some g => fpWords g w.rd x.1
            | none => []) ∧
          t = { s with
            fregs := t.fregs, fpuQueue := ws
            fsr :=
              { s.fsr with
                cexc := x.2, aexc := s.fsr.aexc ||| x.2, ftt := 0#3
                fcc :=
                  match w.op.formats.2.2 with
                  | some _ => s.fsr.fcc
                  | none => BitVec.ofNat 2 x.1 } })
    let x := fpStandard ⟨s.fsr.rd, s.fsr.tem.getLsbD 2⟩ w.op a b
    let moves := w.op = .move ∨ w.op = .negate ∨ w.op = .absolute
    let noFpop := ∃ fpop2, w.op = .unassigned fpop2
    (w.implemented = false ∨ noFpop → waits 3#3 none) ∧
      (w.implemented = true → ¬noFpop →
        (moves → outcome none (x.bits, x.flags.bits)) ∧
          (¬moves →
            (¬NonstandardMode s → outcome s.now.fpu (x.bits, x.flags.bits)) ∧
              (NonstandardMode s →
                outcome s.now.fpu (Config.nonstandardResult w.entry.instruction a b))))) ∧
  (∀ (s : State) (m n : Nat),
    fpEndWork (m + n) s = fpEndWork n (fpEndWork m s) ∧
      (s.fpuMode ≠ .execute ∨ s.fpuQueue = [] → fpEndWork n s = s)) ∧
  (∀ (r : Rounding) (f g : FpFormat) (q : Bool) (a b : Nat),
    let int := BitVec.ofNat 32 b
    fpStandard r (.ofInt g) a b = fpOfInt g r int ∧ fpStandard r (.toInt f) a b = fpToInt f b ∧
      fpStandard r (.convert f g) a b = fpConvert f g r b ∧ fpStandard r (.sqrt f) a b = fpSqrt f r b ∧
        fpStandard r (.add f) a b = fpAdd f r a b ∧ fpStandard r (.sub f) a b = fpSub f r a b ∧
          fpStandard r (.mul f g) a b = fpMul f g r a b ∧ fpStandard r (.div f) a b = fpDiv f r a b ∧
            ((fpStandard r (.compare f q) a b).bits = (fpCompare f a b).toNat ∧
              (fpStandard r (.compare f q) a b).flags =
                { nv := fpRaisesInvalid f q a || fpRaisesInvalid f q b }) ∧
              (b < 2 ^ 32 →
                fpStandard r .move a b = ⟨b, {}⟩ ∧ fpStandard r .absolute a b = ⟨b % 2 ^ 31, {}⟩ ∧
                  fpStandard r .negate a b = ⟨(b + 2 ^ 31) % 2 ^ 32, {}⟩)) ∧
  ∀ (s : State) (rd rs1 : RegNum) (o : Operand2), FpuReady s →
    let a := (effectiveAddress s rs1 o).toNat
    let even := BitVec.ofNat 5 (rd.toNat / 2 * 2)
    let odd := BitVec.ofNat 5 (rd.toNat / 2 * 2 + 1)
    let evenRd := s.cfg.misalignedFregTraps = false ∨ rd.toNat % 2 = 0
    let waitsFor (i : Instr) (depends : FpWork → Bool) : Prop :=
      let u := fpSettle depends s
      exec i s = exec i u ∧ (u.fpuMode = .execute ∧ Independent u depends ∨ ∃ r, u.fpuMode = .pending r)
    (a % 4 = 0 →
      waitsFor (.ldf rd rs1 o) (fun x => x.touches rd) ∧ waitsFor (.stf rd rs1 o) (fun x => x.touches rd) ∧
        waitsFor (.ldfsr rs1 o) anyWork ∧ waitsFor (.stfsr rs1 o) anyWork) ∧
    (a % 8 = 0 →
      (evenRd →
        waitsFor (.lddf rd rs1 o) (fun x => x.touches even || x.touches odd) ∧
          waitsFor (.stdf rd rs1 o) (fun x => x.touches even || x.touches odd)) ∧
      (s.psr.s = true → waitsFor (.stdfq rs1 o) anyWork)) ∧
    ∀ i : Instr, i.wellFormed = true → isFbfcc i = true → waitsFor i FpWork.compares

/-- fp_disabled and cp_disabled: a floating-point or coprocessor instruction with its unit absent or disabled
traps, before anything else it checks but privilege: FPops, FBfcc and floating-point loads and stores; CPops,
CBccc and coprocessor loads and stores; STDFQ and STDCQ in supervisor mode; a word of no FPop unless the
implementation makes it illegal (60_exceptions.md section 4). -/
def Obligations.DisabledUnitsTrap : Prop :=
  ∀ (s : State) (i : Instr), i.wellFormed = true →
    (efOn s = false → usesFpu i = true →
      (∀ rs1 o, i = .stdfq rs1 o → s.psr.s = true) →
        (∀ rd rs1 opf rs2, i = .fpop1Unassigned rd rs1 opf rs2 ∨ i = .fpop2Unassigned rd rs1 opf rs2 →
          s.cfg.reservedOpfIllegal = false) →
          Traps (exec i s) .fpDisabled s) ∧
    (ecOn s = false → usesCp i = true → (∀ rs1 o, i = .stdcq rs1 o → s.psr.s = true) →
      Traps (exec i s) .cpDisabled s)

/-- FMOVs, FNEGs, FABSs with the FPU ready: the word, its sign bit toggled or cleared, whatever it stands for;
cexc and ftt cleared, aexc and fcc unchanged (44_fpop.md section 5). A word of no FPop raises
unimplemented_FPop, or illegal_instruction if the implementation says so, and so does a move that the FPU does
not implement (44_fpop.md section 1). With a queue
they are taken on like every FPop, which is the model's form of a concurrent FPU (log 14; what they come to is
FloatingQueue's), and behind a word of FPop2 the fcc hazard begins (70_reset_and_hazards.md R825; its count is
log 11's). -/
def Obligations.FloatingMovesAndUnassigned : Prop :=
  ∀ (s : State) (rd rs1 rs2 : RegNum) (opf : BitVec 9),
    let v := freg s rs2
    let moves (i : Instr) (op : FpOp) (w : Word) : Prop :=
      (s.cfg.fqPresent = false →
        (unimplemented s.cfg s.instruction = false →
          FpCompletes (exec i s) s [(rd, w)] 0#5 s.fsr.fcc s.fccWindow) ∧
          (unimplemented s.cfg s.instruction = true → Traps (exec i s) (.fpException ⟨3#3, none⟩) s)) ∧
        (s.cfg.fqPresent = true → FpTakenOn (exec i s) s op rd 0#5 rs2 s.fccWindow)
    let raises (i : Instr) (fpop2 : Bool) (window : Nat) : Prop :=
      (s.cfg.reservedOpfIllegal = true → Traps (exec i s) .illegalInstruction s) ∧
        (s.cfg.reservedOpfIllegal = false → FpuReady s →
          (s.cfg.fqPresent = false → Traps (exec i s) (.fpException ⟨3#3, none⟩) s) ∧
            (s.cfg.fqPresent = true →
              FpTakenOn (exec i s) s (.unassigned fpop2) 0#5 0#5 0#5 window))
    (FpuReady s →
      moves (.fmovs rd rs2) .move v ∧ moves (.fnegs rd rs2) .negate (v ^^^ 0x80000000#32) ∧
        moves (.fabss rd rs2) .absolute (BitVec.ofNat 32 (v.toNat % 2 ^ 31))) ∧
      raises (.fpop1Unassigned rd rs1 opf rs2) false s.fccWindow ∧
        raises (.fpop2Unassigned rd rs1 opf rs2) true (max s.fccWindow 2)

/-- The conversions, square roots, additions, subtractions, multiplications and divisions with the FPU ready:
with aligned register numbers the IEEE result of the operands, rounded by FSR.RD and with the underflow rule of
the UFM bit of FSR.TEM, and its exceptions; an enabled exception, a misaligned register number or an FPop the
FPU does not finish traps and writes no f register (44_fpop.md sections 1 to 4 and 6 to 8); one that the FPU
does not implement raises unimplemented_FPop. Of several enabled exceptions the one of the most significant bit
is recorded (R604); misaligned is a double in an odd register and a quad in one that is no multiple of 4, a
double stands in the registers 2k and 2k + 1 and a quad in 4k to 4k + 3 (R602). What the IEEE operations give is
stated by RoundedResults, ExactFloatingResults and NanResults, and rests on the standard from outside the spec
(log 29); when the FPU does not finish an FPop is an input (log 26); with a queue the FPop is taken on (log 14);
with FSR.NS set the results are the implementation's where it says so (log 36); that unimplemented_FPop comes
before invalid_fp_register is the model's choice (log 37). -/
def Obligations.FloatingArithmetic : Prop :=
  (∀ (x : BitVec 5) (k : Nat), x.getLsbD k = true → (∀ j, k < j → x.getLsbD j = false) →
    highestBit x = BitVec.ofNat 5 (2 ^ k)) ∧
  (∀ (f : FpFormat) (n : RegNum),
    (misaligned f n = true ↔ f = .double ∧ n.toNat % 2 = 1 ∨ f = .quad ∧ n.toNat % 4 ≠ 0) ∧
      (evenReg n).toNat = n.toNat / 2 * 2 ∧ (oddReg n).toNat = n.toNat / 2 * 2 + 1 ∧
        ∀ k : RegNum, k.toNat < 4 → (quadReg n k).toNat = n.toNat / 4 * 4 + k.toNat) ∧
  ∀ (s : State) (rd rs1 rs2 : RegNum),
    let r : Rounding := ⟨s.fsr.rd, s.fsr.tem.getLsbD 2⟩
    let unary (i : Instr) (op : FpOp) (f g : FpFormat) (value : Nat → FpResult) : Prop :=
      let b := fpOperand s f rs2
      FpOutcome (exec i s) s op rd 0#5 rs2 [(f, rs2), (g, rd)] 0 b ((value b).bits, (value b).flags.bits)
        (fun bits => (fpWords g rd bits, s.fsr.fcc)) s.fccWindow
    let binary (i : Instr) (op : FpOp) (f g : FpFormat) (value : Nat → Nat → FpResult) : Prop :=
      let a := fpOperand s f rs1
      let b := fpOperand s f rs2
      FpOutcome (exec i s) s op rd rs1 rs2 [(f, rs1), (f, rs2), (g, rd)] a b
        ((value a b).bits, (value a b).flags.bits) (fun bits => (fpWords g rd bits, s.fsr.fcc))
        s.fccWindow
    let int (n : Nat) : Word := BitVec.ofNat 32 n
    FpuReady s →
      unary (.fitos rd rs2) (.ofInt .single) .single .single (fun n => fpOfInt .single r (int n)) ∧
      unary (.fitod rd rs2) (.ofInt .double) .single .double (fun n => fpOfInt .double r (int n)) ∧
      unary (.fitoq rd rs2) (.ofInt .quad) .single .quad (fun n => fpOfInt .quad r (int n)) ∧
      unary (.fstoi rd rs2) (.toInt .single) .single .single (fpToInt .single) ∧
      unary (.fdtoi rd rs2) (.toInt .double) .double .single (fpToInt .double) ∧
      unary (.fqtoi rd rs2) (.toInt .quad) .quad .single (fpToInt .quad) ∧
      unary (.fstod rd rs2) (.convert .single .double) .single .double (fpConvert .single .double r) ∧
      unary (.fstoq rd rs2) (.convert .single .quad) .single .quad (fpConvert .single .quad r) ∧
      unary (.fdtos rd rs2) (.convert .double .single) .double .single (fpConvert .double .single r) ∧
      unary (.fdtoq rd rs2) (.convert .double .quad) .double .quad (fpConvert .double .quad r) ∧
      unary (.fqtos rd rs2) (.convert .quad .single) .quad .single (fpConvert .quad .single r) ∧
      unary (.fqtod rd rs2) (.convert .quad .double) .quad .double (fpConvert .quad .double r) ∧
      unary (.fsqrts rd rs2) (.sqrt .single) .single .single (fpSqrt .single r) ∧
      unary (.fsqrtd rd rs2) (.sqrt .double) .double .double (fpSqrt .double r) ∧
      unary (.fsqrtq rd rs2) (.sqrt .quad) .quad .quad (fpSqrt .quad r) ∧
      binary (.fadds rd rs1 rs2) (.add .single) .single .single (fpAdd .single r) ∧
      binary (.faddd rd rs1 rs2) (.add .double) .double .double (fpAdd .double r) ∧
      binary (.faddq rd rs1 rs2) (.add .quad) .quad .quad (fpAdd .quad r) ∧
      binary (.fsubs rd rs1 rs2) (.sub .single) .single .single (fpSub .single r) ∧
      binary (.fsubd rd rs1 rs2) (.sub .double) .double .double (fpSub .double r) ∧
      binary (.fsubq rd rs1 rs2) (.sub .quad) .quad .quad (fpSub .quad r) ∧
      binary (.fmuls rd rs1 rs2) (.mul .single .single) .single .single (fpMul .single .single r) ∧
      binary (.fmuld rd rs1 rs2) (.mul .double .double) .double .double (fpMul .double .double r) ∧
      binary (.fmulq rd rs1 rs2) (.mul .quad .quad) .quad .quad (fpMul .quad .quad r) ∧
      binary (.fsmuld rd rs1 rs2) (.mul .single .double) .single .double (fpMul .single .double r) ∧
      binary (.fdmulq rd rs1 rs2) (.mul .double .quad) .double .quad (fpMul .double .quad r) ∧
      binary (.fdivs rd rs1 rs2) (.div .single) .single .single (fpDiv .single r) ∧
      binary (.fdivd rd rs1 rs2) (.div .double) .double .double (fpDiv .double r) ∧
      binary (.fdivq rd rs1 rs2) (.div .quad) .quad .quad (fpDiv .quad r)

/-- FCMP and FCMPE with the FPU ready: fcc of the operands, invalid for a signaling NaN and, of FCMPE, for any
NaN; no f register is written; traps as the other FPops, fcc then unchanged; the fcc hazard begins (44_fpop.md
section 9). fcc is 0 for equal, 1 for less, 2 for greater numbers or infinities, the zeroes being equal, and 3
if either operand is a NaN. The hazard's count is the model's choice (log 11); when the FPU does not finish a
comparison is an input (log 26); with a queue it is taken on (log 14); in nonstandard mode fcc and the
exceptions are the implementation's (log 36); that unimplemented_FPop comes before invalid_fp_register is the
model's choice (log 37). -/
def Obligations.FloatingCompares : Prop :=
  (∀ (s : State) (rs1 rs2 : RegNum),
    let compares (i : Instr) (f : FpFormat) (quietToo : Bool) : Prop :=
      let a := fpOperand s f rs1
      let b := fpOperand s f rs2
      let nv := fpRaisesInvalid f quietToo a || fpRaisesInvalid f quietToo b
      FpOutcome (exec i s) s (.compare f quietToo) 0#5 rs1 rs2 [(f, rs1), (f, rs2)] a b
        ((fpCompare f a b).toNat, if nv then 16#5 else 0#5)
        (fun bits => ([], BitVec.ofNat 2 bits)) (max s.fccWindow 2)
    FpuReady s →
      compares (.fcmps rs1 rs2) .single false ∧ compares (.fcmpd rs1 rs2) .double false ∧
        compares (.fcmpq rs1 rs2) .quad false ∧ compares (.fcmpes rs1 rs2) .single true ∧
          compares (.fcmped rs1 rs2) .double true ∧ compares (.fcmpeq rs1 rs2) .quad true) ∧
  ∀ (f : FpFormat) (a b : Nat),
    (∀ (s1 s2 : Bool) (x y : ℝ), StandsFor f a s1 x → StandsFor f b s2 y →
      (x = y → fpCompare f a b = 0#2) ∧ (x < y → fpCompare f a b = 1#2) ∧
        (y < x → fpCompare f a b = 2#2)) ∧
    (∀ s1 s2 : Bool, fpUnpack f a = .inf s1 →
      (fpUnpack f b = .inf s2 →
        fpCompare f a b = if s1 = s2 then 0#2 else if s1 = true then 1#2 else 2#2) ∧
        ∀ y, StandsFor f b s2 y →
          fpCompare f a b = (if s1 then 1#2 else 2#2) ∧ fpCompare f b a = if s1 then 2#2 else 1#2) ∧
    ((∃ q n, fpUnpack f a = .nan q n) ∨ (∃ q n, fpUnpack f b = .nan q n) → fpCompare f a b = 3#2) ∧
    ∀ quietToo : Bool, fpRaisesInvalid f quietToo a = true ↔
      ∃ signaling n, fpUnpack f a = .nan signaling n ∧ (signaling = true ∨ quietToo = true)

/-- A conversion or product whose exact value the result format always holds delivers exactly that value and
raises nothing, however results are rounded: FiTOd and FiTOq; the widening conversions; FsMULd and FdMULq
(44_fpop.md section 1, rounding; the values are those of 10_state.md section 10). With infinite operands and no
NaN, sums, differences, products, quotients, roots and conversions are the infinities and zeroes of the
standard, exact too; a quotient by zero of a nonzero number is an infinity and raises division by zero; a sum of
numbers that is zero is +0, or -0 if both are -0 or results are rounded toward minus infinity and they differ
(log 29). -/
def Obligations.ExactFloatingResults : Prop :=
  (∀ (r : Rounding),
    let holds (g : FpFormat) (x : FpResult) (sign : Bool) (mant : Nat) (exp : Int) : Prop :=
      x.flags = {} ∧ x.bits < 2 * g.signBit ∧
        ∃ (m : Nat) (e : Int), fpUnpack g x.bits = .num sign m e ∧
          ∀ k : Int, k ≤ e → k ≤ exp → m * 2 ^ (e - k).toNat = mant * 2 ^ (exp - k).toNat
    (∀ (i : Word) (g : FpFormat), g ≠ .single →
      holds g (fpOfInt g r i) i.msb i.toInt.natAbs 0) ∧
    (∀ (f g : FpFormat) (a : Nat) (s : Bool) (m : Nat) (e : Int),
      f = .single ∧ g ≠ .single ∨ f = .double ∧ g = .quad → fpUnpack f a = .num s m e →
        holds g (fpConvert f g r a) s m e) ∧
    (∀ (f g : FpFormat) (a b : Nat) (s1 s2 : Bool) (m1 m2 : Nat) (e1 e2 : Int),
      f = .single ∧ g = .double ∨ f = .double ∧ g = .quad → fpUnpack f a = .num s1 m1 e1 →
        fpUnpack f b = .num s2 m2 e2 →
          holds g (fpMul f g r a b) (s1 ^^ s2) (m1 * m2) (e1 + e2))) ∧
  ∀ (f g : FpFormat) (r : Rounding) (a b : Nat) (s1 s2 : Bool),
    let inf (g : FpFormat) (s : Bool) (x : FpResult) : Prop :=
      x.flags = {} ∧ x.bits = (if s then g.signBit else 0) + g.maxExp * 2 ^ g.fracBits
    let zero (g : FpFormat) (s : Bool) (x : FpResult) : Prop :=
      x.flags = {} ∧ x.bits = if s then g.signBit else 0
    (fpUnpack f a = .inf s1 →
      inf g s1 (fpConvert f g r a) ∧ (s1 = false → inf f false (fpSqrt f r a)) ∧
      (fpUnpack f b = .inf s2 →
        (s1 = s2 → inf f s1 (fpAdd f r a b)) ∧ (s1 ≠ s2 → inf f s1 (fpSub f r a b)) ∧
          inf g (s1 ^^ s2) (fpMul f g r a b)) ∧
      ∀ y, StandsFor f b s2 y →
        inf f s1 (fpAdd f r a b) ∧ inf f s1 (fpAdd f r b a) ∧ inf f s1 (fpSub f r a b) ∧
          inf f (!s1) (fpSub f r b a) ∧ inf f (s1 ^^ s2) (fpDiv f r a b) ∧
            zero f (s1 ^^ s2) (fpDiv f r b a) ∧
              (y ≠ 0 → inf g (s1 ^^ s2) (fpMul f g r a b) ∧ inf g (s1 ^^ s2) (fpMul f g r b a))) ∧
    ∀ x y, StandsFor f a s1 x → StandsFor f b s2 y →
      (x + y = 0 → zero f (if s1 = s2 then s1 else r.rd == 3#2) (fpAdd f r a b)) ∧
      (x - y = 0 → zero f (if s1 = !s2 then s1 else r.rd == 3#2) (fpSub f r a b)) ∧
      (x * y = 0 → zero g (s1 ^^ s2) (fpMul f g r a b)) ∧
      (x = 0 → zero g s1 (fpConvert f g r a) ∧ zero f s1 (fpSqrt f r a)) ∧
      (x = 0 → y ≠ 0 → zero f (s1 ^^ s2) (fpDiv f r a b)) ∧
      (x ≠ 0 → y = 0 →
        (fpDiv f r a b).flags = { dz := true } ∧
          (fpDiv f r a b).bits =
            (if (s1 ^^ s2) then f.signBit else 0) + f.maxExp * 2 ^ f.fracBits)

/-- Every finite result that is not zero is the exact one correctly rounded, in the direction of FSR.RD, with
overflow, underflow (tininess before rounding) and inexact as they fall: sums, differences, products, quotients,
square roots, the conversions between formats and of integers; a conversion to an integer truncates toward zero,
is inexact if that changes the value, and of a NaN, an infinity or a number out of range is invalid and delivers
the largest integer of its sign (44_fpop.md R605, R615 to R662; 10_state.md R56, R67). The results are those of
the standard, from outside the spec (log 29). -/
def Obligations.RoundedResults : Prop :=
  (∀ (f g : FpFormat) (r : Rounding) (a b : Nat) (s1 s2 : Bool) (x y : ℝ),
    StandsFor f a s1 x → StandsFor f b s2 y →
      (x + y ≠ 0 → Rounded f r (x + y) (fpAdd f r a b)) ∧
      (x - y ≠ 0 → Rounded f r (x - y) (fpSub f r a b)) ∧
      (x * y ≠ 0 → Rounded g r (x * y) (fpMul f g r a b)) ∧
      (x ≠ 0 → y ≠ 0 → Rounded f r (x / y) (fpDiv f r a b)) ∧
      (0 < x → Rounded f r (Real.sqrt x) (fpSqrt f r a)) ∧
      (x ≠ 0 → Rounded g r x (fpConvert f g r a))) ∧
  (∀ (g : FpFormat) (r : Rounding) (i : Word),
    (i ≠ 0#32 → Rounded g r (i.toInt : ℝ) (fpOfInt g r i)) ∧ (i = 0#32 → fpOfInt g r i = ⟨0, {}⟩)) ∧
  ∀ (f : FpFormat) (a : Nat) (sign : Bool),
    let invalid : FpResult := ⟨if sign then 2 ^ 31 else 2 ^ 31 - 1, { nv := true }⟩
    (∀ (x : ℝ) (t : Int), StandsFor f a sign x → t = (if sign then -⌊|x|⌋ else ⌊|x|⌋) →
      let fits := -(2 ^ 31) ≤ t ∧ t < 2 ^ 31
      (fits →
        (fpToInt f a).bits = (BitVec.ofInt 32 t).toNat ∧
          (fpToInt f a).flags = { nx := (fpToInt f a).flags.nx } ∧
            ((fpToInt f a).flags.nx = true ↔ (t : ℝ) ≠ x)) ∧
        (¬fits → fpToInt f a = invalid)) ∧
    (fpUnpack f a = .inf sign → fpToInt f a = invalid) ∧
    ((∃ q n, fpUnpack f a = .nan q n) → a / f.signBit % 2 = sign.toNat → fpToInt f a = invalid)

/-- The result of an addition, subtraction, multiplication or division in one format with a NaN operand: a
signaling second operand made quiet, else a signaling first operand made quiet, both invalid; else the second
operand if it is a NaN, else the first; of a square root its operand made quiet. Of FsMULd, FdMULq and a
conversion between formats the NaN so chosen is transformed: its sign, the most significant fraction bits, the
quiet bit. An invalid operation without a NaN operand delivers the NaN of all ones but the sign (44_fpop.md
section 1, R607 with the table of NaN operands; the sign is D19's). -/
def Obligations.NanResults : Prop :=
  (∀ (f g : FpFormat) (r : Rounding) (a b : Nat),
    let quiet (x : Nat) : Nat := x ||| 2 ^ (f.fracBits - 1)
    let transformed (x : Nat) : Nat :=
      x / f.signBit % 2 * g.signBit + g.maxExp * 2 ^ g.fracBits
        + (x % 2 ^ f.fracBits * 2 ^ g.fracBits / 2 ^ f.fracBits ||| 2 ^ (g.fracBits - 1))
    let table (op : FpResult) (q t : Nat → Nat) : Prop :=
      (∀ m, fpUnpack f b = .nan true m → op = ⟨q b, { nv := true }⟩) ∧
      (∀ m, fpUnpack f a = .nan true m → (∀ k, fpUnpack f b ≠ .nan true k) →
        op = ⟨q a, { nv := true }⟩) ∧
      (∀ m, (∀ k, fpUnpack f a ≠ .nan true k) → fpUnpack f b = .nan false m → op = ⟨t b, {}⟩) ∧
      (∀ m, fpUnpack f a = .nan false m → (∀ q k, fpUnpack f b ≠ .nan q k) → op = ⟨t a, {}⟩)
    (∀ op ∈ [fpAdd f r, fpSub f r, fpMul f f r, fpDiv f r], table (op a b) quiet id) ∧
    (f ≠ g → table (fpMul f g r a b) transformed transformed) ∧
    ∀ signaling m, fpUnpack f a = .nan signaling m →
      fpSqrt f r a = ⟨quiet a, { nv := signaling }⟩ ∧
        (f ≠ g → fpConvert f g r a = ⟨transformed a, { nv := signaling }⟩)) ∧
  ∀ (f g : FpFormat) (r : Rounding) (a b : Nat) (s1 s2 : Bool),
    let invalid (g : FpFormat) (x : FpResult) : Prop := x = ⟨g.signBit - 1, { nv := true }⟩
    (∀ x, StandsFor f a s1 x → x < 0 → invalid f (fpSqrt f r a)) ∧
    (fpUnpack f a = .inf true → invalid f (fpSqrt f r a)) ∧
    (StandsFor f a s1 0 → StandsFor f b s2 0 → invalid f (fpDiv f r a b)) ∧
    (fpUnpack f a = .inf s1 →
      (fpUnpack f b = .inf s2 →
        invalid f (fpDiv f r a b) ∧ (s1 ≠ s2 → invalid f (fpAdd f r a b)) ∧
          (s1 = s2 → invalid f (fpSub f r a b))) ∧
      (StandsFor f b s2 0 → invalid g (fpMul f g r a b) ∧ invalid g (fpMul f g r b a)))

/-! ### The coprocessor and the Reference MMU -/

/-- The coprocessor's instructions with a coprocessor that is present and enabled, has no exception outstanding
and answers without one, wherever the access takes place, translated or not: its next state is CP_MODEL's for
the request (the CSR of LDCSR is the word read, STDCQ removes the front entry of the queue, CPop1 leaves the
condition codes alone; a CPop hands over its own address), a store puts its words in memory, and no other state
changes. With an exception every one of them takes cp_exception before its access, the coprocessor's state being
its own matter but for the condition codes behind CPop1, whose exception leaves them alone when it is deferred
too; so does STDCQ without a queue or with an empty one. With an exception outstanding, a deferred one, every
one of them takes it before all else but its checks of mode, unit and alignment, and the coprocessor does
nothing for it; a coprocessor with a queue makes one outstanding, of a CPop1 or a CPop2, when the environment
says so, with the queue that CP_MODEL gives (45_cpop.md; 40_load_store.md sections 4 and 7; 60_exceptions.md
R720; the form of CP_MODEL and of the deferral is the model's choice, log 16; I/O locations log 39, read-only
memory log 41, a suppressed fault log 18, a stale instruction buffer log 27). -/
def Obligations.CoprocessorResults : Prop :=
  (∀ s : State,
    let queue := s.cfg.cpPresent = true ∧ s.cfg.cqPresent = true
    (∀ cpop, s.now.cpDeferred = some cpop → queue →
      let next := Config.cpNext (.defer cpop) s.cp
      cpDefers s =
        { s with cp := if cpop = .op1 then { next with cc := s.cp.cc } else next, cpPending := true }) ∧
      (s.now.cpDeferred = none ∨ ¬queue → cpDefers s = s)) ∧
  ∀ (s t : State) (rd rs1 rs2 : RegNum) (o : Operand2) (opc : BitVec 9) (p : Place), ecOn s = true →
    let data : BitVec 8 := if s.psr.s then 0x0B#8 else 0x0A#8
    let address := effectiveAddress s rs1 o
    let after (q : CpRequest) : CpState := Config.cpNext q s.cp
    let becomes (i : Instr) (u : State) (cp : CpState) : Prop :=
      exec i s = .next { u with pc := s.npc, npc := s.npc + 4#32, cp := cp }
    let loads (i : Instr) (cp : Word → CpState) : Prop :=
      LoadAt s p data address .word t → ∃ v u, Delivers p t data .word false v u ∧ becomes i u (cp v)
    let puts (i : Instr) (z : Size) (cp : CpState) (vs : List Word) : Prop :=
      StoreAt s p data address z t → PutsAnd p (exec i s) t { t with cp := cp } data address z vs []
    let double := Config.cpData (.storeDouble rd) s.cp
    (s.cpPending = false → s.now.cpException = false →
      becomes (.cpop1 rd rs1 opc rs2) s { after (.op1 s.pc rd rs1 opc rs2) with cc := s.cp.cc } ∧
      becomes (.cpop2 rd rs1 opc rs2) s (after (.op2 s.pc rd rs1 opc rs2)) ∧
      loads (.ldc rd rs1 o) (fun v => after (.load rd v)) ∧
      loads (.ldcsr rs1 o) (fun v => { after (.loadCsr v) with csr := v }) ∧
      (LoadAt s p data address .dword t →
        ∃ v0 v1 u, DeliversPair p t data v0 v1 u ∧ becomes (.lddc rd rs1 o) u (after (.loadDouble rd v0 v1))) ∧
      puts (.stc rd rs1 o) .word (after (.store rd)) [(Config.cpData (.store rd) s.cp).1] ∧
      puts (.stcsr rs1 o) .word (after .storeCsr) [(after .storeCsr).csr] ∧
      puts (.stdc rd rs1 o) .dword (after (.storeDouble rd)) [double.1, double.2] ∧
      (s.psr.s = true → s.cfg.cqPresent = true →
        ∀ (e : Word × Word) (rest : List (Word × Word)), s.cp.cq = e :: rest →
          puts (.stdcq rs1 o) .dword { after .storeQueue with cq := rest } [e.1, e.2])) ∧
    (s.cpPending = false → s.now.cpException = true →
      let excepts (i : Instr) (cp : CpState) : Prop := Traps (exec i s) .cpException { s with cp := cp }
      excepts (.cpop1 rd rs1 opc rs2) { after (.op1 s.pc rd rs1 opc rs2) with cc := s.cp.cc } ∧
      excepts (.cpop2 rd rs1 opc rs2) (after (.op2 s.pc rd rs1 opc rs2)) ∧
      (address.toNat % 4 = 0 →
        excepts (.ldc rd rs1 o) (after (.load rd 0#32)) ∧ excepts (.ldcsr rs1 o) (after (.loadCsr 0#32)) ∧
          excepts (.stc rd rs1 o) (after (.store rd)) ∧ excepts (.stcsr rs1 o) (after .storeCsr)) ∧
      (address.toNat % 8 = 0 →
        excepts (.lddc rd rs1 o) (after (.loadDouble rd 0#32 0#32)) ∧
          excepts (.stdc rd rs1 o) (after (.storeDouble rd)) ∧
            (s.psr.s = true → s.cfg.cqPresent = true → s.cp.cq ≠ [] →
              excepts (.stdcq rs1 o) (after .storeQueue)))) ∧
    (s.cpPending = true →
      let provokes (xs : List Instr) : Prop := ∀ i ∈ xs, Traps (exec i s) .cpException s
      provokes [.cpop1 rd rs1 opc rs2, .cpop2 rd rs1 opc rs2] ∧
        (address.toNat % 4 = 0 → provokes [.ldc rd rs1 o, .ldcsr rs1 o, .stc rd rs1 o, .stcsr rs1 o]) ∧
          (address.toNat % 8 = 0 →
            provokes [.lddc rd rs1 o, .stdc rd rs1 o] ∧ (s.psr.s = true → provokes [.stdcq rs1 o]))) ∧
    (address.toNat % 8 = 0 → s.psr.s = true → s.cfg.cqPresent = false ∨ s.cp.cq = [] →
      Traps (exec (.stdcq rs1 o) s) .cpException s)

/-- The MMU's registers, read and written as words in their address space, selected by VA[11:8]: Control,
Context Table Pointer, Context, Fault Status, which a read clears, and Fault Address; writes to the fault
registers are ignored; PSO_mode follows the PSO bit where the implementation provides PSO (20_memory.md R131); a
SWAPA reads the register and then writes it; no register stands at the other places, and an access there, or one
that is no word, raises data_access_exception (21_reference_mmu.md section 3, R218; SWAPA and the last are log
21's). -/
def Obligations.MmuRegisterAccess : Prop :=
  ∀ (s : State) (rd rs1 rs2 : RegNum) (asi : BitVec 8), s.psr.s = true →
    s.now.machineCheck = none → asiKind s.cfg asi = .mmuRegister →
    let a := (reg s rs1 + reg s rs2).toNat
    let m := s.mmu
    let bit (b : Bool) (k : Nat) : Nat := if b then 2 ^ k else 0
    let reads (v : Word) : Prop := WritesReg (exec (.lda rd rs1 (.reg asi rs2)) s) s rd v s.psr.icc
    let v := reg s rd
    let writesPso (m' : Mmu) (pso : Bool) : Prop :=
      exec (.sta rd rs1 (.reg asi rs2)) s =
        .next { s with
          pc := s.npc, npc := s.npc + 4#32, mmu := m', psoMode := pso, storeBarrierPending := false }
    let writes (m' : Mmu) : Prop := writesPso m' s.psoMode
    let free := s.blockByte = false ∧ s.blockWord = false
    let swapsPso (old : Word) (m' : Mmu) (pso : Bool) : Prop :=
      free →
        Completes (exec (.swapa rd rs1 (.reg asi rs2)) s) fun t =>
          RegsWritten s t s.psr.cwp [(rd, old)] ∧ MemoryKept s t ∧
            t = { s with
              pc := s.npc, npc := s.npc + 4#32, globals := t.globals, windowed := t.windowed
              mmu := m', psoMode := pso, storeBarrierPending := false }
    let swaps (old : Word) (m' : Mmu) : Prop := swapsPso old m' s.psoMode
    let control : Word :=
      BitVec.ofNat 32
        (s.cfg.mmuImpl.toNat * 2 ^ 28 + s.cfg.mmuVer.toNat * 2 ^ 24
          + (m.sc &&& s.cfg.mmuScMask).toNat * 2 ^ 8 + bit m.pso 7 + bit m.nf 1 + bit m.e 0)
    let controlled :=
      { m with
        sc := BitVec.ofNat 16 (v.toNat / 256) &&& s.cfg.mmuScMask, pso := v.getLsbD 7
        nf := v.getLsbD 1, e := v.getLsbD 0 }
    let status : Word :=
      BitVec.ofNat 32
        (m.status.ebe.toNat * 2 ^ 10 + m.status.level.toNat * 2 ^ 8
          + m.status.access.toNat * 2 ^ 5 + m.status.ft.toNat * 2 ^ 2 + bit m.status.fav 1
          + bit m.status.ow 0)
    let cleared := { m with status := ⟨0#8, 0#2, 0#3, 0#3, false, false⟩, statusClass := none }
    let context := 2 ^ s.cfg.mmuContextBits.val
    a % 4 = 0 →
    (a / 256 % 16 = 0 →
      reads control ∧ writesPso controlled (s.cfg.psoSupported && v.getLsbD 7) ∧
        swapsPso control controlled (s.cfg.psoSupported && v.getLsbD 7)) ∧
    (a / 256 % 16 = 1 →
      reads (BitVec.ofNat 32 (m.ctp.toNat * 4)) ∧
        writes { m with ctp := BitVec.ofNat 30 (v.toNat / 4) } ∧
          swaps (BitVec.ofNat 32 (m.ctp.toNat * 4)) { m with ctp := BitVec.ofNat 30 (v.toNat / 4) }) ∧
    (a / 256 % 16 = 2 →
      reads (BitVec.ofNat 32 (m.context.toNat % context)) ∧
        writes { m with context := BitVec.ofNat 32 (v.toNat % context) } ∧
          swaps (BitVec.ofNat 32 (m.context.toNat % context))
            { m with context := BitVec.ofNat 32 (v.toNat % context) }) ∧
    (a / 256 % 16 = 3 →
      (Completes (exec (.lda rd rs1 (.reg asi rs2)) s) fun t =>
        RegsWritten s t s.psr.cwp [(rd, status)] ∧ MemoryKept s t ∧
          t = { s with
            pc := s.npc, npc := s.npc + 4#32, globals := t.globals, windowed := t.windowed
            mmu := cleared }) ∧
      writes m ∧ swaps status cleared) ∧
    (a / 256 % 16 = 4 → reads m.far ∧ writes m ∧ swaps m.far m) ∧
    let traps (i : Instr) (u : State) : Prop := Traps (exec i s) .dataAccessException u
    let stored := { s with storeBarrierPending := false }
    (5 ≤ a / 256 % 16 →
      traps (.lda rd rs1 (.reg asi rs2)) s ∧ traps (.sta rd rs1 (.reg asi rs2)) stored ∧
        (free → traps (.swapa rd rs1 (.reg asi rs2)) s)) ∧
      (∀ i ∈ [Instr.lduba rd rs1 (.reg asi rs2), .lduha rd rs1 (.reg asi rs2), .ldsba rd rs1 (.reg asi rs2),
        .ldsha rd rs1 (.reg asi rs2)], traps i s) ∧
      traps (.stba rd rs1 (.reg asi rs2)) stored ∧ traps (.stha rd rs1 (.reg asi rs2)) stored ∧
      (free → traps (.ldstuba rd rs1 (.reg asi rs2)) s) ∧
      (a % 8 = 0 → s.cfg.oddRdLddTraps = false ∨ rd.toNat % 2 = 0 →
        traps (.ldda rd rs1 (.reg asi rs2)) s ∧ traps (.stda rd rs1 (.reg asi rs2)) stored)

/-- A translation uses the page descriptor cache, some of whose entries may have been replaced. The table walk
of an access for which the cache has no PTE, of the context or a supervisor page's: the context's root pointer
and the tables below it, each found where the address's index says, down to the first entry that is no PTD, at a
level from 0 to 3; of a level for which the cache has a PTD of the context it is that PTD, and the table is not
read. A PTE there maps a region of the level's size, 4 Gbytes, 16 Mbytes, 256 Kbytes or 4 Kbytes, its frame and
the offset in the region making the physical address; if R186 allows the access, the Referenced bit, and for a
store the Modified bit, are set in the entry in memory and no other byte changes, and the cache has the entry in
front of what it had, and with it the PTDs read where it caches those, else the fault is R186's. An invalid
entry is an invalid address error; a reserved one, a PTD at level 3, a table that cannot be read and an external
bus error on the read of an entry are translation errors. A fault is recorded with the level of its entry
(21_reference_mmu.md sections 2, 3 and 5). The draw of free values, the form of the fault registers and of the
bus error are the model's (log 17, log 40, log 22 to log 24, log 26); so is that a walk that ends in a fault
brings no PTD into the cache (log 17). -/
def Obligations.TranslationWalksTables : Prop :=
  (∀ (s : State) (kind : AccessKind) (asi : BitVec 8) (va : Word) (store : Bool),
    let u := pdcEvict s
    u.mmu.pdc.Sublist s.mmu.pdc ∧
      u = { s with mmu := { s.mmu with pdc := u.mmu.pdc }, freeDraws := s.freeDraws + 1 } ∧
        translate s kind asi va store = translateCached u kind asi va store) ∧
  ∀ (s : State) (kind : AccessKind) (asi : BitVec 8) (va : Word) (store : Bool) (e : Nat → Word) (k : Nat),
    let v := va.toNat
    let root := (s.mmu.ctp.toNat * 64 + s.mmu.context.toNat * 4) % 2 ^ 36
    let table (i : Nat) (index : Nat) : Nat := ((e i).toNat / 4 * 64 + index * 4) % 2 ^ 36
    let place (i : Nat) : Nat :=
      if i = 0 then root
      else if i = 1 then table 0 (v / 2 ^ 24)
      else if i = 2 then table 1 (v / 2 ^ 18 % 64)
      else table 2 (v / 2 ^ 12 % 64)
    let size : Nat := if k = 0 then 2 ^ 32 else if k = 1 then 2 ^ 24 else if k = 2 then 2 ^ 18 else 2 ^ 12
    let struck (i : Nat) : Prop :=
      kind = .fetch ∧ s.now.machineCheck = some (.instructionTableError (BitVec.ofNat 2 i)) ∨
        kind = .first ∧ s.now.machineCheck = some (.dataTableError (BitVec.ofNat 2 i))
    let unreadable (i : Nat) : Prop := struck i ∨ tableReadable s.cfg (place i) = false
    let width (level : Nat) : Nat :=
      if level = 0 then 32 else if level = 1 then 24 else if level = 2 then 18 else 12
    let same (y : PdcEntry) : Prop := y.va.toNat / 2 ^ width y.level = v / 2 ^ width y.level
    let translates (y : PdcEntry) : Prop :=
      y.entry.toNat % 4 = 2 ∧ same y ∧
        (y.context = s.mmu.context ∨ s.cfg.pdcIgnoresContext = true ∧ 6 ≤ (y.entry.extractLsb' 2 3).toNat)
    let cached (i : Nat) : Option PdcEntry :=
      s.mmu.pdc.find? fun y =>
        decide (y.level = i ∧ y.entry.toNat % 4 = 1 ∧ y.context = s.mmu.context ∧ same y)
    let holds (i : Nat) : Prop :=
      (∃ y, cached i = some y ∧ y.entry = e i) ∨ cached i = none ∧ ¬unreadable i ∧ wordAt s (place i) = e i
    let ptds : List PdcEntry :=
      if s.cfg.pdcCachesPtds then
        ((List.range k).filter fun i => (cached i).isNone).reverse.map fun i =>
          ⟨s.mmu.context, va, i, e i, place i⟩
      else []
    let known (entry : Word) : List PdcEntry :=
      ⟨s.mmu.context, va, k, entry, place k⟩ :: (ptds ++ s.mmu.pdc)
    let access := accessType asi store
    let cls : FaultClass := if asi = 0x08#8 ∨ asi = 0x09#8 then .instruction else .data
    let o := translateCached s kind asi va store
    let fails (ft : BitVec 3) (cls : FaultClass) (bus : Bool) : Prop :=
      ∃ t, o = .fault ft none t ∧ FaultRecorded s.mmu t.mmu cls (BitVec.ofNat 2 k) access ft bus va ∧
        t = { s with mmu := t.mmu, freeDraws := t.freeDraws }
    let bits : Word := if store then 0x60#32 else 0x20#32
    let et := (e k).toNat % 4
    let ft := permissionFault access ((e k).extractLsb' 2 3)
    k ≤ 3 → (∀ y ∈ s.mmu.pdc, ¬translates y) → (∀ i, i < k → holds i ∧ (e i).toNat % 4 = 1) →
      (cached k = none → unreadable k → fails 4#3 .table true) ∧
      (holds k →
        (et = 0 → fails 1#3 cls false) ∧ (et = 3 ∨ et = 1 ∧ k = 3 → fails 4#3 cls false) ∧
        (et = 2 → ((e k).toNat / 256 * 4096) % size = 0 →
          let pa := (e k).toNat / 256 * 4096 + v % size
          (ft = 0#3 →
            ∃ (p : BitVec 36) (t : State), o = .ok p k t ∧ p.toNat = pa ∧
              StoresBytes s t (place k) (bytesOfWord (e k ||| bits)) ∧
                t = { s with mem := t.mem, mmu := { s.mmu with pdc := known (e k ||| bits) } }) ∧
          (ft ≠ 0#3 →
            ∃ (p : BitVec 36) (t : State), o = .fault ft (some p) t ∧ p.toNat = pa ∧
              FaultRecorded { s.mmu with pdc := known (e k) } t.mmu cls (BitVec.ofNat 2 k) access ft false va ∧
                t = { s with mmu := t.mmu, freeDraws := t.freeDraws })))

/-- The faults of the MMU. R186's table of fault types, by access type and ACC; R188's access types of loads,
fetches and stores in the four spaces. A fault of a translated load or store raises data_access_exception, of a
fetch instruction_access_exception, in the state that recorded it. With the NF bit set it raises nothing: a load
delivers a free value of its size, a fetch in user mode a free word, a store may or may not be performed, at the
address the translation knows and nowhere else. NF spares no access in ASI 9, a load or store there or a fetch
in supervisor mode. An internal error comes before all else and, like an access bus error, is recorded with its
type (6, 5) and a free level, and raises the error exception. That every other load, store, atomic,
floating-point and coprocessor access does the same is stated by AccessExceptions, and with NF set by
AccessesElsewhere, FloatingLoads, FloatingStores and CoprocessorResults (21_reference_mmu.md R182, R186 to R192;
the free values and the level are the model's choice, log 18, log 22, log 26). -/
def Obligations.MmuFaults : Prop :=
  (let table : List (List Nat) :=
    [[0, 0, 0, 0, 2, 0, 3, 3], [0, 0, 0, 0, 2, 0, 0, 0], [2, 2, 0, 0, 0, 2, 3, 3], [2, 2, 0, 0, 0, 2, 0, 0],
      [2, 0, 2, 0, 2, 2, 3, 3], [2, 0, 2, 0, 2, 0, 2, 0], [2, 2, 2, 0, 2, 2, 3, 3], [2, 2, 2, 0, 2, 2, 2, 0]]
  ∀ access acc : BitVec 3,
    (permissionFault access acc).toNat = (table.getD access.toNat []).getD acc.toNat 0) ∧
  (accessType 0x0A#8 false = 0#3 ∧ accessType 0x0B#8 false = 1#3 ∧ accessType 0x08#8 false = 2#3 ∧
    accessType 0x09#8 false = 3#3 ∧ accessType 0x0A#8 true = 4#3 ∧ accessType 0x0B#8 true = 5#3 ∧
      accessType 0x08#8 true = 6#3 ∧ accessType 0x09#8 true = 7#3) ∧
  (∀ s : State, translating s = true → s.now.machineCheck = none →
    let space : BitVec 8 := if s.psr.s then 0x09#8 else 0x08#8
    ∀ ft pa t, translate s .fetch space s.pc false = .fault ft pa t →
      (s.psr.s = true ∨ s.mmu.nf = false → fetch s = .fault .instructionAccessException t) ∧
      (s.psr.s = false → s.mmu.nf = true →
        ∃ w, fetch s = .ok w { t with freeDraws := t.freeDraws + 1 })) ∧
  (∀ (s t : State) (x : Trap), s.mode = .execute → (takeInputs s).now = Inputs.quiet → s.annul = false →
    fetch (turn (takeInputs s)) = .fault x t → Traps (step s) x t) ∧
  (∀ (s : State) (rd rs1 rs2 : RegNum), translating s = true → s.now.machineCheck = none → s.psr.s = true →
    let address := reg s rs1 + reg s rs2
    let u := { s with storeBarrierPending := false }
    address.toNat % 4 = 0 → ∀ ft pa t,
      (translate s .first 0x09#8 address false = .fault ft pa t →
        Traps (exec (.lda rd rs1 (.reg 0x09#8 rs2)) s) .dataAccessException t) ∧
      (translate u .first 0x09#8 address true = .fault ft pa t →
        Traps (exec (.sta rd rs1 (.reg 0x09#8 rs2)) s) .dataAccessException t)) ∧
  ∀ (s : State) (rd rs1 : RegNum) (o : Operand2),
    let data : BitVec 8 := if s.psr.s then 0x0B#8 else 0x0A#8
    let address := effectiveAddress s rs1 o
    let u := { s with storeBarrierPending := false }
    translating s = true → address.toNat % 4 = 0 →
    (s.now.machineCheck = none →
      (∀ ft pa t, translate s .first data address false = .fault ft pa t →
        (s.mmu.nf = false → ∀ i ∈ [Instr.ld rd rs1 o, .ldub rd rs1 o, .lduh rd rs1 o, .ldsb rd rs1 o,
            .ldsh rd rs1 o], Traps (exec i s) .dataAccessException t) ∧
        (s.mmu.nf = true →
          let goesOn (i : Instr) (bits : Nat) : Prop :=
            Completes (exec i s) fun x =>
              ∃ v : Word, v.toNat < 2 ^ bits ∧ RegsWritten t x t.psr.cwp [(rd, v)] ∧
                x = { t with
                  pc := s.npc, npc := s.npc + 4#32, globals := x.globals, windowed := x.windowed
                  freeDraws := t.freeDraws + 1 }
          goesOn (.ld rd rs1 o) 32 ∧ goesOn (.lduh rd rs1 o) 16 ∧ goesOn (.ldub rd rs1 o) 8)) ∧
      (∀ ft pa t, translate u .first data address true = .fault ft pa t →
        (s.mmu.nf = false → ∀ i ∈ [Instr.st rd rs1 o, .stb rd rs1 o, .sth rd rs1 o],
          Traps (exec i s) .dataAccessException t) ∧
        (s.mmu.nf = true →
          Completes (exec (.st rd rs1 o) s) fun x =>
            x = { t with
              pc := s.npc, npc := s.npc + 4#32, mem := x.mem, staleWords := x.staleWords
              freeDraws := t.freeDraws + 1 } ∧
              (s.cfg.ibufStale = false → x.staleWords = s.staleWords) ∧ (pa = none → MemoryKept s x) ∧
                ∀ p, pa = some p → ∀ a, a < p.toNat ∨ p.toNat + 4 ≤ a →
                  x.mem.read8 a = s.mem.read8 a))) ∧
    (s.now.machineCheck = some .dataInternalError → s.mmu.nf = false →
      ∃ t, Traps (exec (.ld rd rs1 o) s) .dataAccessError t ∧
        ∃ level, FaultRecorded s.mmu t.mmu .data level (accessType data false) 6#3 false address ∧
          t = { s with mmu := t.mmu, freeDraws := t.freeDraws }) ∧
    (s.now.machineCheck = some (.dataAccessError false) → s.mmu.nf = false →
      ∀ pa k x, translate s .first data address false = .ok pa k x →
        ∃ t, Traps (exec (.ld rd rs1 o) s) .dataAccessError t ∧
          ∃ level, FaultRecorded x.mmu t.mmu .data level (accessType data false) 5#3 true address ∧
            t = { x with mmu := t.mmu, freeDraws := t.freeDraws })

/-- The page descriptor cache. A PTE it holds for the address and the context, or for a supervisor page where
the context is ignored, the first of them translates without a look at the tables; memory is written only if the
entry's R, or for a store M, was clear: the clear bits are set in memory and in the cached entry; an access that
its ACC refuses is R186's fault, recorded with the level of the entry, and nothing else changes. Where the
implementation has it so the C bit of the entry makes the access an I/O access (log 42). A flush, a word stored
in the flush and probe space, removes exactly the entries of R197 and R198 for its type and changes nothing
else. A probe, a word loaded there, changes nothing but the MMU, one of type 0 to 3 brings no entry into the
cache. It delivers the entry that the cache has for its level, of type 4 the PTE, the cache being what
replacement leaves of it. With nothing cached it delivers the tables' entry at the probed level, or zero if a
PTD is missing above it, it is reserved, or it is a PTD at level 3; one of type 4 delivers the first PTE, and
zero if there is none. A memory error on the read of an entry makes the probe deliver zero; no exception is
raised, and the fault registers are updated with a translation error at the level of the entry. A SWAPA in the
flush and probe space is a probe and then a flush (log 21). A word stored in a cache-flush space changes nothing
that the architecture sees; any other access there, and one that is no word in the flush and probe space, raises
data_access_exception (log 21). Which address spaces these are is Appendix I's, unless ASI_MAP says otherwise
(21_reference_mmu.md R176, R186, R188, R195 to R201, R217 to R224; ASI_MAP log 25; that a probe sets no R bit,
that all probes are present and the access type of a probe's error log 20; the replacement of entries, and that
a probe whose walk ends in a fault brings no PTD into the cache, log 17; the form of the error log 22 and log
26). -/
def Obligations.CacheFlushAndProbe : Prop :=
  (∀ (s : State) (kind : AccessKind) (asi : BitVec 8) (va : Word) (store : Bool) (before rest : List PdcEntry)
    (x : PdcEntry),
    let width (y : PdcEntry) : Nat :=
      if y.level = 0 then 32 else if y.level = 1 then 24 else if y.level = 2 then 18 else 12
    let fits (y : PdcEntry) : Prop :=
      y.entry.toNat % 4 = 2 ∧ y.va.toNat / 2 ^ width y = va.toNat / 2 ^ width y ∧
        (y.context = s.mmu.context ∨
          s.cfg.pdcIgnoresContext = true ∧ 6 ≤ (y.entry.extractLsb' 2 3).toNat)
    let shift := width x
    let bits : Word := if store then 0x60#32 else 0x20#32
    s.mmu.pdc = before ++ x :: rest → (∀ y ∈ before, ¬fits y) → fits x →
        (x.entry.toNat / 256 * 4096) % 2 ^ shift = 0 →
          let access := accessType asi store
          let ft := permissionFault access (x.entry.extractLsb' 2 3)
          let cls : FaultClass := if asi = 0x08#8 ∨ asi = 0x09#8 then .instruction else .data
          let pa := x.entry.toNat / 256 * 4096 + va.toNat % 2 ^ shift
          (ft ≠ 0#3 →
            ∃ (p : BitVec 36) (t : State), translateCached s kind asi va store = .fault ft (some p) t ∧
              p.toNat = pa ∧ FaultRecorded s.mmu t.mmu cls (BitVec.ofNat 2 x.level) access ft false va ∧
                t = { s with mmu := t.mmu, freeDraws := t.freeDraws }) ∧
          (ft = 0#3 →
            ∃ (p : BitVec 36) (t : State), translateCached s kind asi va store = .ok p x.level t ∧
              p.toNat = pa ∧
                (x.entry &&& bits = bits → t = s) ∧
                  (x.entry &&& bits ≠ bits →
                    StoresBytes s t x.entryPa (bytesOfWord (wordAt s x.entryPa ||| (bits &&& ~~~x.entry))) ∧
                      t = { s with
                        mem := t.mem
                        mmu :=
                          { s.mmu with
                            pdc :=
                              s.mmu.pdc.map fun y =>
                                if y = x then { x with entry := x.entry ||| bits } else y } }))) ∧
  (∀ (c : Config) (asi : BitVec 8), c.mmuPresent = true → c.asiDecodeMask = 0xFF#8 → c.asiMap.lookup asi = none →
    (asi = 0x03#8 ↔ asiKind c asi = .flushProbe) ∧ (asi = 0x04#8 ↔ asiKind c asi = .mmuRegister) ∧
      (asi ∈ [0x10#8, 0x11#8, 0x12#8, 0x13#8, 0x14#8, 0x18#8, 0x19#8, 0x1A#8, 0x1B#8, 0x1C#8] ↔
        asiKind c asi = .cacheFlush) ∧
      ∀ n : BitVec 4, asi.toNat = 0x20 + n.toNat → asiKind c asi = .physical n true) ∧
  (∀ (s : State) (rd rs1 rs2 : RegNum) (asi : BitVec 8), s.psr.s = true → s.now.machineCheck = none →
    let alt := AltOperand.reg asi rs2
    let va := (reg s rs1 + reg s rs2).toNat
    let stored := { s with storeBarrierPending := false }
    let free := s.blockByte = false ∧ s.blockWord = false
    let evenRd := s.cfg.oddRdLddTraps = false ∨ rd.toNat % 2 = 0
    let loads (n : Nat) (xs : List Instr) : Prop :=
      va % n = 0 → ∀ i ∈ xs, Traps (exec i s) .dataAccessException s
    let stores (n : Nat) (xs : List Instr) : Prop :=
      va % n = 0 → ∀ i ∈ xs, Traps (exec i s) .dataAccessException stored
    (asiKind s.cfg asi = .flushProbe ∨ asiKind s.cfg asi = .cacheFlush →
      loads 1 [.lduba rd rs1 alt, .ldsba rd rs1 alt] ∧ loads 2 [.lduha rd rs1 alt, .ldsha rd rs1 alt] ∧
        stores 1 [.stba rd rs1 alt] ∧ stores 2 [.stha rd rs1 alt] ∧ (free → loads 1 [.ldstuba rd rs1 alt]) ∧
          (evenRd → loads 8 [.ldda rd rs1 alt] ∧ stores 8 [.stda rd rs1 alt])) ∧
    (asiKind s.cfg asi = .cacheFlush →
      loads 4 [.lda rd rs1 alt] ∧ (free → loads 4 [.swapa rd rs1 alt]) ∧
        (va % 4 = 0 →
          exec (.sta rd rs1 alt) s =
            .next { s with pc := s.npc, npc := s.npc + 4#32, storeBarrierPending := false }))) ∧
  (∀ (s : State) (asi : BitVec 8) (va : Word) (pa : Nat) (x : PdcEntry) (rest : List PdcEntry),
    translating s = true → asi ∈ [0x08#8, 0x09#8, 0x0A#8, 0x0B#8] → s.mmu.pdc = x :: rest →
      x.context = s.mmu.context → x.level = 3 → x.entry.toNat % 4 = 2 → x.va.toNat / 4096 = va.toNat / 4096 →
        let kind := regionKind s.cfg asi pa
        (s.cfg.uncacheableIsIo = true ∧ x.entry.getLsbD 7 = false ∧ kind ≠ .unmapped →
          locationKind s asi va pa = .io) ∧
          (s.cfg.uncacheableIsIo = false ∨ x.entry.getLsbD 7 = true ∨ kind = .unmapped →
            locationKind s asi va pa = kind)) ∧
  (∀ (s : State) (access : AccessKind) (va : Word) (before rest : List PdcEntry) (x : PdcEntry),
    let kind := va.toNat / 256 % 16
    let width (y : PdcEntry) : Nat :=
      if y.level = 0 then 32 else if y.level = 1 then 24 else if y.level = 2 then 18 else 12
    let pte (y : PdcEntry) : Prop := y.entry.toNat % 4 = 2
    let fits (y : PdcEntry) : Prop :=
      (kind = 4 ∧ pte y ∨ y.level = 3 - kind ∧ kind ≠ 4) ∧
        y.va.toNat / 2 ^ width y = va.toNat / 2 ^ width y ∧
          (y.context = s.mmu.context ∨
            s.cfg.pdcIgnoresContext = true ∧ pte y ∧ 6 ≤ (y.entry.extractLsb' 2 3).toNat)
    kind ≤ 4 → s.mmu.pdc = before ++ x :: rest → (∀ y ∈ before, ¬fits y) → fits x →
      probeCached s access va = (x.entry, s)) ∧
  (∀ (s : State) (rd rs1 rs2 : RegNum) (asi : BitVec 8), s.psr.s = true → asiKind s.cfg asi = .flushProbe →
    let va := reg s rs1 + reg s rs2
    let kind := va.toNat / 256 % 16
    let probe := exec (.lda rd rs1 (.reg asi rs2)) s
    let flushed (x : PdcEntry) : Prop :=
      let pte := x.entry.toNat % 4 = 2
      let supervisor := 6 ≤ (x.entry.extractLsb' 2 3).toNat
      let context := x.context = s.mmu.context ∨ pte ∧ supervisor
      let same (shift : Nat) : Prop := x.va.toNat / 2 ^ shift = va.toNat / 2 ^ shift
      (kind = 0 ∧ context ∧ x.level = 3 ∧ same 12) ∨ (kind = 1 ∧ context ∧ 2 ≤ x.level ∧ same 18) ∨
        (kind = 2 ∧ context ∧ 1 ≤ x.level ∧ same 24) ∨
          (kind = 3 ∧ x.context = s.mmu.context ∧ ¬(pte ∧ supervisor)) ∨ kind = 4
    va.toNat % 4 = 0 →
    (Completes (exec (.sta rd rs1 (.reg asi rs2)) s) fun t =>
      t = { s with
        pc := s.npc, npc := s.npc + 4#32, storeBarrierPending := false
        mmu := { s.mmu with pdc := t.mmu.pdc } } ∧
      ∀ x : PdcEntry, x ∈ t.mmu.pdc ↔ x ∈ s.mmu.pdc ∧ ¬flushed x) ∧
    (s.blockByte = false → s.blockWord = false → ∀ t, probe = .next t →
      Completes (exec (.swapa rd rs1 (.reg asi rs2)) s) fun u =>
        u = { t with storeBarrierPending := false, mmu := { t.mmu with pdc := u.mmu.pdc } } ∧
          ∀ x : PdcEntry, x ∈ u.mmu.pdc ↔ x ∈ t.mmu.pdc ∧ ¬flushed x) ∧
    (kind ≤ 4 →
      let width (y : PdcEntry) : Nat :=
        if y.level = 0 then 32 else if y.level = 1 then 24 else if y.level = 2 then 18 else 12
      let pte (y : PdcEntry) : Prop := y.entry.toNat % 4 = 2
      let fits (y : PdcEntry) : Prop :=
        (kind = 4 ∧ pte y ∨ y.level = 3 - kind ∧ kind ≠ 4) ∧
          y.va.toNat / 2 ^ width y = va.toNat / 2 ^ width y ∧
            (y.context = s.mmu.context ∨
              s.cfg.pdcIgnoresContext = true ∧ pte y ∧ 6 ≤ (y.entry.extractLsb' 2 3).toNat)
      let kept := (pdcEvict s).mmu.pdc
      kept.Sublist s.mmu.pdc ∧
        ∀ before x rest, kept = before ++ x :: rest → (∀ y ∈ before, ¬fits y) → fits x →
          Completes probe fun t =>
            RegsWritten s t s.psr.cwp [(rd, x.entry)] ∧ t.mmu = { s.mmu with pdc := kept }) ∧
    (Completes probe fun t =>
      let p := probeCached (pdcEvict s) .first va
      RegsWritten s t s.psr.cwp [(rd, p.1)] ∧ t.mmu = p.2.mmu ∧ MemoryKept s t ∧
        (kind ≤ 3 → ∀ x ∈ t.mmu.pdc, x ∈ s.mmu.pdc) ∧
          t = { s with
            pc := s.npc, npc := s.npc + 4#32, globals := t.globals, windowed := t.windowed
            mmu := t.mmu, freeDraws := t.freeDraws }) ∧
    (kind ≤ 4 → s.mmu.pdc = [] → ∀ e : Nat → Word,
      let root := (s.mmu.ctp.toNat * 64 + s.mmu.context.toNat * 4) % 2 ^ 36
      let table (i : Nat) (index : Nat) : Nat := ((e i).toNat / 4 * 64 + index * 4) % 2 ^ 36
      let place (i : Nat) : Nat :=
        if i = 0 then root
        else if i = 1 then table 0 (va.toNat / 2 ^ 24)
        else if i = 2 then table 1 (va.toNat / 2 ^ 18 % 64)
        else table 2 (va.toNat / 2 ^ 12 % 64)
      let et (i : Nat) : Nat := (e i).toNat % 4
      let delivers (v : Word) : Prop := Completes probe fun t => RegsWritten s t s.psr.cwp [(rd, v)]
      let struck (i : Nat) : Prop := s.now.machineCheck = some (.dataTableError (BitVec.ofNat 2 i))
      let unreadable (i : Nat) : Prop := struck i ∨ tableReadable s.cfg (place i) = false
      (∀ k, k ≤ 3 → kind + k ≤ 3 ∨ kind = 4 →
        (∀ i, i < k → ¬unreadable i ∧ wordAt s (place i) = e i ∧ et i = 1) → unreadable k →
          Completes probe fun t =>
            RegsWritten s t s.psr.cwp [(rd, 0#32)] ∧
              FaultRecorded s.mmu t.mmu .table (BitVec.ofNat 2 k) 1#3 4#3 true va ∧
                t = { s with
                  pc := s.npc, npc := s.npc + 4#32, globals := t.globals, windowed := t.windowed
                  mmu := t.mmu, freeDraws := t.freeDraws }) ∧
      ∀ k, k ≤ 3 → (∀ i, i ≤ k → ¬unreadable i ∧ wordAt s (place i) = e i) → (∀ i, i < k → et i = 1) →
        (kind + k = 3 → delivers (if et k = 3 ∨ k = 3 ∧ et k = 1 then 0#32 else e k)) ∧
          (kind + k < 3 → et k ≠ 1 → delivers 0#32) ∧
            (kind = 4 →
              (et k = 2 → delivers (e k)) ∧ (et k = 0 ∨ et k = 3 ∨ k = 3 ∧ et k = 1 → delivers 0#32))))

/-- What comes before an instruction that was fetched, from wherever and in whatever state its fetch leaves: a
peremptory error of the register file before all else; a watchpoint before every exception of a lower priority,
but behind those above it in the table: privileged_instruction, illegal_instruction, fp_disabled, cp_disabled
and unimplemented_FLUSH, so behind RDPSR in user mode, UNIMP and an unimplemented instruction. An unimplemented
instruction, with or without a watchpoint, raises privileged_instruction where it may not run, else
illegal_instruction; an unimplemented FPop fp_disabled, else the FPU finds it and raises unimplemented_FPop,
with a queue behind the FPops before it, which is FloatingQueue's; an unimplemented CPop cp_disabled, else
cp_exception (60_exceptions.md R705, R712, R713, R720, R728, R733, R736; 44_fpop.md R603). Which instructions
are privileged, which illegal, and which belong to the FPU and the coprocessor, is spelled out. What selects the
unimplemented words is the model's choice (log 37), and so is that a RETT with traps disabled which traps here,
other than for want of privilege, enters error_mode with tt unwritten (log 44). -/
def Obligations.PrioritiesBeforeExecution : Prop :=
  (∀ (c : Config) (i : Instr),
    isPrivileged c i = true ↔
      ∃ (rd rs1 n : RegNum) (o : Operand2) (alt : AltOperand),
        i ∈ [Instr.ldsba rd rs1 alt, .ldsha rd rs1 alt, .lduba rd rs1 alt, .lduha rd rs1 alt, .lda rd rs1 alt,
            .ldda rd rs1 alt, .stba rd rs1 alt, .stha rd rs1 alt, .sta rd rs1 alt, .stda rd rs1 alt,
            .ldstuba rd rs1 alt, .swapa rd rs1 alt, .stdfq rs1 o, .stdcq rs1 o, .rdpsr rd, .rdwim rd,
            .rdtbr rd, .wrpsr rs1 o, .wrwim rs1 o, .wrtbr rs1 o, .rett rs1 o] ∨
          c.asrPrivileged.getLsbD n.toNat = true ∧ i ∈ [Instr.rdasr rd n, .wrasr n rs1 o]) ∧
  (∀ (s : State) (i : Instr),
    isIllegal s i = true ↔
      ∃ (rd rs1 rs2 n : RegNum) (o : Operand2) (low : BitVec 13) (asi : BitVec 8) (imm : BitVec 22)
        (op2 : BitVec 3) (op3 : BitVec 6) (opf : BitVec 9),
        i ∈ [Instr.unimp imm, .unassignedOp2 op2, .unassignedOp3Arith op3, .unassignedOp3Mem op3,
            .ldsba rd rs1 (.imm low), .ldsha rd rs1 (.imm low), .lduba rd rs1 (.imm low),
            .lduha rd rs1 (.imm low), .lda rd rs1 (.imm low), .ldda rd rs1 (.imm low),
            .stba rd rs1 (.imm low), .stha rd rs1 (.imm low), .sta rd rs1 (.imm low),
            .stda rd rs1 (.imm low), .ldstuba rd rs1 (.imm low), .swapa rd rs1 (.imm low)] ∨
          (s.cfg.oddRdLddTraps = true ∧ rd.toNat % 2 = 1 ∧
            i ∈ [Instr.ldd rd rs1 o, .std rd rs1 o, .ldda rd rs1 (.reg asi rs2), .stda rd rs1 (.reg asi rs2)]) ∨
          (s.cfg.nwindows ≤ (reg s rs1 ^^^ operand2 s o).toNat % 32 ∧ i = .wrpsr rs1 o) ∨
          (s.psr.et = true ∧ i = .rett rs1 o) ∨
          (16 ≤ n.toNat ∧ s.cfg.asrImplemented.getLsbD (n.toNat - 16) = false ∧
            i ∈ [Instr.rdasr rd n, .wrasr n rs1 o]) ∨
          (s.cfg.reservedOpfIllegal = true ∧
            i ∈ [Instr.fpop1Unassigned rd rs1 opf rs2, .fpop2Unassigned rd rs1 opf rs2]) ∨
          s.cfg.flushImpl = .trapsIllegalInstruction ∧ i = .flush rs1 o) ∧
  (∀ i : Instr, i.wellFormed = true →
    let w := (encode i).toNat
    let op := w / 2 ^ 30
    let op2 := w / 2 ^ 22 % 8
    let op3 := w / 2 ^ 19 % 64
    (usesFpu i = true ↔
      op = 0 ∧ op2 = 6 ∨ op = 2 ∧ op3 ∈ [0x34, 0x35] ∨
        op = 3 ∧ op3 ∈ [0x20, 0x21, 0x23, 0x24, 0x25, 0x26, 0x27]) ∧
      (usesCp i = true ↔
        op = 0 ∧ op2 = 7 ∨ op = 2 ∧ op3 ∈ [0x36, 0x37] ∨
          op = 3 ∧ op3 ∈ [0x30, 0x31, 0x33, 0x34, 0x35, 0x36, 0x37])) ∧
  ∀ (s v : State) (w : Word) (i : Instr) (rest : List Byte) (x : Option MachineCheck),
    s.mode = .execute → (takeInputs s).now = { Inputs.quiet with machineCheck := x } →
      s.annul = false → decode (bytesOfWord w) = .ok (i, rest) →
        fetch (turn (takeInputs s)) = .ok w v →
        let u := { v with
          instruction := w, fccWindow := fccTurn w s.fccWindow, recentWrites := tickRecent s.recentWrites }
        let integer := isFpopWord w = false ∧ isCpopWord w = false
        let legal := isPrivileged u.cfg i = false ∨ u.psr.s = true
        let disabled :=
          usesFpu i = true ∧ efOn u = false ∨ usesCp i = true ∧ ecOn u = false ∨
            (∃ rs1 o, i = .flush rs1 o) ∧ u.cfg.flushImpl = .trapsUnimplementedFlush
        let above := ¬legal ∨ isIllegal u i = true ∨ disabled
        let watch := x = some .watchpointDetected
        let quiet := x = none
        (x = some .rRegisterAccessError → Traps (step s) .rRegisterAccessError u) ∧
        (unimplemented s.cfg w = false →
          (watch → ¬above → Traps (step s) .watchpointDetected u) ∧ (watch ∧ above ∨ quiet → step s = exec i u)) ∧
        (unimplemented s.cfg w = true → integer → watch ∨ quiet →
          (¬legal →
            ((∃ rs1 o, i = .rett rs1 o) → u.psr.et = false →
              step s = .next (rettError .privilegedInstruction u)) ∧
              ((∀ rs1 o, i ≠ .rett rs1 o) ∨ u.psr.et = true → Traps (step s) .privilegedInstruction u)) ∧
            (legal → Traps (step s) .illegalInstruction u)) ∧
        (unimplemented s.cfg w = true → isFpopWord w = true →
          (watch → ¬above → Traps (step s) .watchpointDetected u) ∧
            (watch ∧ above ∨ quiet → step s = exec i u) ∧
              (isIllegal u i = false →
                (watch ∨ quiet → efOn u = false → Traps (step s) .fpDisabled u) ∧
                  (quiet → FpuReady u → s.cfg.fqPresent = false →
                    Traps (step s) (.fpException ⟨3#3, none⟩) u))) ∧
        (unimplemented s.cfg w = true → isCpopWord w = true →
          (watch → ecOn u = true → Traps (step s) .watchpointDetected u) ∧
            (watch ∨ quiet → ecOn u = false → Traps (step s) .cpDisabled u) ∧
              (quiet → ecOn u = true → Traps (step s) .cpException u))

/-- The other machine checks the environment presents. Between two instructions data_store_error and the
implementation-dependent traps are taken with traps enabled, ET being that of the last pending WRPSR, and
ignored with traps disabled. On an untranslated fetch instruction_access_error and the access exception are
taken instead of the instruction, an MMU miss where the Reference MMU is not present. On the first access of an
untranslated load, store or atomic, integer, floating-point or coprocessor, by the data space or by an alternate
one of memory or of a device, the error, the access exception and the miss are taken instead of the access; a
floating-point load may then have put FP_LOAD_FAULT_VALUE into its registers. On the second word of a doubleword
load from real memory the first has reached its register, or the coprocessor, on that of a doubleword store the
first word is stored, by the write half of an atomic nothing is (60_exceptions.md R721 to R723, R727, R731,
R732, R734; 40_load_store.md R330, R335, R349, R370, R375). When one is presented, in the model's form, and that
the ET of the last pending WRPSR decides, are log 26's; the first word of an LDDF in its register is log 43's;
that what has been done stays done in error_mode too is log 7's; the coprocessor's form is log 16's; what a
stale instruction buffer keeps is log 27's. -/
def Obligations.MachineChecks : Prop :=
  (∀ (s : State) (x : MachineCheck), s.mode = .execute →
    (takeInputs s).now = { Inputs.quiet with machineCheck := some x } →
      let u := takeInputs s
      let between (t : Trap) (tt : BitVec 8) : Prop :=
        ((effectivePsr u).et = true → Traps (step s) t u ∧ trapType t = tt) ∧
          ((effectivePsr u).et = false → interruptingTrap u = none)
      (x = .dataStoreError → between .dataStoreError 0x2B#8) ∧
      (∀ n, x = .implementationDependent n →
        between (.implementationDependent n) (0x60#8 + n.setWidth 8)) ∧
      (s.annul = false → translating s = false →
        let fails (t : Trap) (tt : BitVec 8) : Prop := Traps (step s) t (turn u) ∧ trapType t = tt
        (x = .instructionAccessError → fails .instructionAccessError 0x21#8) ∧
          (x = .instructionAccessException → fails .instructionAccessException 0x01#8) ∧
            (x = .instructionAccessMmuMiss → s.cfg.mmuPresent = false →
              fails .instructionAccessMmuMiss 0x3C#8))) ∧
  ∀ (s : State) (rd rs1 rs2 : RegNum) (o : Operand2) (asi : BitVec 8) (t : Trap),
    let data : BitVec 8 := if s.psr.s then 0x0B#8 else 0x0A#8
    let address := effectiveAddress s rs1 o
    let alt := AltOperand.reg asi rs2
    let altAddress := reg s rs1 + reg s rs2
    let x := s.now.machineCheck
    let on (second : Bool) : Prop :=
      t = .dataAccessError ∧ x = some (.dataAccessError second) ∨
        t = .dataAccessException ∧ x = some (.dataAccessException second)
    let miss := t = .dataAccessMmuMiss ∧ x = some .dataAccessMmuMiss ∧ s.cfg.mmuPresent = false
    let even := BitVec.ofNat 5 (rd.toNat / 2 * 2)
    let odd := BitVec.ofNat 5 (rd.toNat / 2 * 2 + 1)
    let evenRd := s.cfg.oddRdLddTraps = false ∨ rd.toNat % 2 = 0
    let evenF := s.cfg.misalignedFregTraps = false ∨ rd.toNat % 2 = 0
    let free := s.blockByte = false ∧ s.blockWord = false
    let fpu := efOn s = true ∧ (∀ r, s.fpuMode ≠ .pending r) ∧ s.fpuQueue = []
    let fpuLoads := FpuReady s ∧ s.fpuQueue = []
    let cp := ecOn s = true ∧ s.cpPending = false ∧ s.now.cpException = false
    let untranslated (space : BitVec 8) : Prop :=
      asiKind s.cfg space = .device ∨ asiKind s.cfg space = .normal ∧ translating s = false ∨
        ∃ upper passThrough, asiKind s.cfg space = .physical upper passThrough ∧
          (passThrough = true → translating s = false)
    let stored := { s with storeBarrierPending := false }
    let fails (i : Instr) (u : State) : Prop := Traps (exec i s) t u
    let first (a : Word) (n : Nat) (reads writes atomics : List Instr) : Prop :=
      a.toNat % n = 0 →
        (∀ i ∈ reads, fails i s) ∧ (∀ i ∈ writes, fails i stored) ∧ (free → ∀ i ∈ atomics, fails i s)
    let faulted (regs : List RegNum) : List (RegNum × Word) :=
      match t, s.cfg.fpLoadFaultValue with
      | .dataAccessException, some v => regs.map fun n => (n, v)
      | _, _ => []
    let fpLoads (a : Word) (n : Nat) (i : Instr) (xs : List (RegNum × Word)) : Prop :=
      a.toNat % n = 0 → ∃ u, fails i u ∧ FregsWritten s u xs ∧ u = { s with fregs := u.fregs }
    let realAt (space : BitVec 8) (a : Word) (pa : Nat) : Prop :=
      untranslated space ∧ plainPa s space a = some pa ∧
        regionKind s.cfg (decodedAsi s.cfg space) pa = .realMemory
    let secondLoad (a : Word) (pa : Nat) (i : Instr) : Prop :=
      a.toNat % 8 = 0 →
        ∃ u, fails i u ∧ RegsWritten s u s.psr.cwp [(even, wordAt s pa)] ∧
          u = { s with globals := u.globals, windowed := u.windowed }
    let secondStore (a : Word) (pa : Nat) (i : Instr) (v : Word) : Prop :=
      a.toNat % 8 = 0 →
        ∃ u, fails i u ∧ StoresBytes s u pa (bytesOfWord v) ∧ CopiesKept s u a pa 1 (fun _ => true) ∧
          u = { stored with mem := u.mem, staleWords := u.staleWords }
    (trapType .dataAccessError = 0x29#8 ∧ trapType .dataAccessException = 0x09#8 ∧
      trapType .dataAccessMmuMiss = 0x2C#8) ∧
    (on false ∨ miss →
      (translating s = false →
        first address 1 [.ldub rd rs1 o, .ldsb rd rs1 o] [.stb rd rs1 o] [.ldstub rd rs1 o] ∧
        first address 2 [.lduh rd rs1 o, .ldsh rd rs1 o] [.sth rd rs1 o] [] ∧
        first address 4 [.ld rd rs1 o] [.st rd rs1 o] [.swap rd rs1 o] ∧
        (evenRd → first address 8 [.ldd rd rs1 o] [.std rd rs1 o] []) ∧
        (fpu → first address 4 [] [.stf rd rs1 o, .stfsr rs1 o] [] ∧
          (evenF → first address 8 [] [.stdf rd rs1 o] []) ∧
            (s.psr.s = true → s.cfg.fqPresent = true → s.fq ≠ [] → first address 8 [] [.stdfq rs1 o] [])) ∧
        (fpuLoads →
          fpLoads address 4 (.ldf rd rs1 o) (faulted [rd]) ∧ fpLoads address 4 (.ldfsr rs1 o) [] ∧
            (evenF → fpLoads address 8 (.lddf rd rs1 o) (faulted [even, odd]))) ∧
        (cp →
          first address 4 [.ldc rd rs1 o, .ldcsr rs1 o] [.stc rd rs1 o, .stcsr rs1 o] [] ∧
            first address 8 [.lddc rd rs1 o] [.stdc rd rs1 o] [] ∧
              (s.psr.s = true → s.cfg.cqPresent = true → s.cp.cq ≠ [] →
                first address 8 [] [.stdcq rs1 o] []))) ∧
      (s.psr.s = true → untranslated asi →
        first altAddress 1 [.lduba rd rs1 alt, .ldsba rd rs1 alt] [.stba rd rs1 alt] [.ldstuba rd rs1 alt] ∧
        first altAddress 2 [.lduha rd rs1 alt, .ldsha rd rs1 alt] [.stha rd rs1 alt] [] ∧
        first altAddress 4 [.lda rd rs1 alt] [.sta rd rs1 alt] [.swapa rd rs1 alt] ∧
        (evenRd → first altAddress 8 [.ldda rd rs1 alt] [.stda rd rs1 alt] []))) ∧
    (on true → ∀ pa : Nat,
      (realAt data address pa →
        (free → fails (.ldstub rd rs1 o) stored ∧ (address.toNat % 4 = 0 → fails (.swap rd rs1 o) stored)) ∧
        (evenRd → secondLoad address pa (.ldd rd rs1 o) ∧ secondStore address pa (.std rd rs1 o) (reg s even)) ∧
        (fpu →
          (evenF → secondStore address pa (.stdf rd rs1 o) (freg s even)) ∧
            (s.psr.s = true → s.cfg.fqPresent = true → ∀ e rest, s.fq = e :: rest →
              secondStore address pa (.stdfq rs1 o) e.address)) ∧
        (fpuLoads → evenF →
          fpLoads address 8 (.lddf rd rs1 o)
            (match faulted [even, odd] with
            | [] => [(even, wordAt s pa)]
            | xs => xs)) ∧
        (cp →
          (address.toNat % 8 = 0 →
            fails (.lddc rd rs1 o) { s with cp := Config.cpNext (.loadFirst rd (wordAt s pa)) s.cp }) ∧
          secondStore address pa (.stdc rd rs1 o) (Config.cpData (.storeDouble rd) s.cp).1 ∧
            (s.psr.s = true → s.cfg.cqPresent = true → ∀ e rest, s.cp.cq = e :: rest →
              secondStore address pa (.stdcq rs1 o) e.1))) ∧
      (s.psr.s = true → realAt asi altAddress pa →
        (free →
          fails (.ldstuba rd rs1 alt) stored ∧ (altAddress.toNat % 4 = 0 → fails (.swapa rd rs1 alt) stored)) ∧
        (evenRd →
          secondLoad altAddress pa (.ldda rd rs1 alt) ∧ secondStore altAddress pa (.stda rd rs1 alt) (reg s even))))
end

