-- ==== Sys2Proof/Laws/Memory.lean ====
section
/-! SUPPORT. The laws of memory: a read after a write, and that every operation keeps the canonical
form. -/

namespace Sys2Proof.Machine

/-! ### One byte -/

theorem Memory.read8_insert_same (m : Memory) (k : Nat) (b : Byte) (h : ∀ c ∈ m, c.1 ≠ k) :
    (m.insert k b).read8 k = b := by
  induction m with
  | nil => simp [Memory.insert, Memory.read8]
  | cons x m ih =>
    obtain ⟨a, c⟩ := x
    have ha : a ≠ k := h (a, c) (by simp)
    have hm := ih (fun c hc => h c (by simp [hc]))
    unfold Memory.insert
    split
    · simp [Memory.read8]
    · simp [Memory.read8, ha, hm]

theorem Memory.read8_insert_ne (m : Memory) (k j : Nat) (b : Byte) (h : j ≠ k) :
    (m.insert k b).read8 j = m.read8 j := by
  induction m with
  | nil => simp [Memory.insert, Memory.read8, Ne.symm h]
  | cons x m ih =>
    obtain ⟨a, c⟩ := x
    unfold Memory.insert
    split
    · simp [Memory.read8, Ne.symm h]
    · simp [Memory.read8, ih]

theorem Memory.read8_absent (m : Memory) (k : Nat) (h : ∀ c ∈ m, c.1 ≠ k) :
    m.read8 k = Memory.unlisted := by
  induction m with
  | nil => rfl
  | cons x m ih =>
    obtain ⟨a, c⟩ := x
    have ha : a ≠ k := h (a, c) (by simp)
    simp [Memory.read8, ha, ih (fun c hc => h c (by simp [hc]))]

theorem Memory.read8_filter_ne (m : Memory) (k j : Nat) (h : j ≠ k) :
    Memory.read8 (m.filter (fun c => c.1 != k)) j = m.read8 j := by
  induction m with
  | nil => rfl
  | cons x m ih =>
    obtain ⟨a, c⟩ := x
    by_cases hk : a = k
    · subst hk
      simp only [List.filter_cons, bne_self_eq_false, Bool.false_eq_true, if_false, Memory.read8, ih]
      simp [Ne.symm h]
    · have hk' : (a != k) = true := by simp [hk]
      simp only [List.filter_cons, hk', if_true, Memory.read8, ih]

theorem Memory.filter_absent (m : Memory) (k : Nat) :
    ∀ c ∈ m.filter (fun c => c.1 != k), c.1 ≠ k := by
  intro c hc
  have := (List.mem_filter.mp hc).2
  simpa using this

/-- Reading the byte that was written. -/
@[simp] theorem Memory.read8_write8_same (m : Memory) (k : Nat) (b : Byte) :
    (m.write8 k b).read8 k = b := by
  unfold Memory.write8
  simp only []
  split
  · next h => rw [Memory.read8_absent _ _ (Memory.filter_absent m k), h]
  · exact Memory.read8_insert_same _ _ _ (Memory.filter_absent m k)

/-- Reading another byte. -/
@[simp] theorem Memory.read8_write8_ne (m : Memory) (k j : Nat) (b : Byte) (h : j ≠ k) :
    (m.write8 k b).read8 j = m.read8 j := by
  unfold Memory.write8
  simp only []
  split
  · exact Memory.read8_filter_ne m k j h
  · rw [Memory.read8_insert_ne _ _ _ _ h, Memory.read8_filter_ne m k j h]

/-! ### Accesses -/

/-- A write changes only the bytes of the access. -/
theorem Memory.read8_write_outside (m : Memory) (a : Nat) (v : Word) (size : Size) (j : Nat)
    (h : j < a ∨ a + size.bytes ≤ j) : (m.write a v size).read8 j = m.read8 j := by
  cases size <;> simp only [Size.bytes] at h
  · exact Memory.read8_write8_ne _ _ _ _ (by omega)
  · unfold Memory.write
    rw [Memory.read8_write8_ne _ _ _ _ (by omega), Memory.read8_write8_ne _ _ _ _ (by omega)]
  all_goals
    show (Memory.write32 m a v).read8 j = m.read8 j
    unfold Memory.write32
    rw [Memory.read8_write8_ne _ _ _ _ (by omega), Memory.read8_write8_ne _ _ _ _ (by omega),
      Memory.read8_write8_ne _ _ _ _ (by omega), Memory.read8_write8_ne _ _ _ _ (by omega)]

/-- The four bytes of a word that was written. -/
theorem Memory.read8_write32 (m : Memory) (a : Nat) (v : Word) :
    (m.write32 a v).read8 a = v.extractLsb' 24 8 ∧
      (m.write32 a v).read8 (a + 1) = v.extractLsb' 16 8 ∧
      (m.write32 a v).read8 (a + 2) = v.extractLsb' 8 8 ∧
      (m.write32 a v).read8 (a + 3) = v.extractLsb' 0 8 := by
  unfold Memory.write32
  refine ⟨?_, ?_, ?_, Memory.read8_write8_same _ _ _⟩
  · rw [Memory.read8_write8_ne _ _ _ _ (by omega), Memory.read8_write8_ne _ _ _ _ (by omega),
      Memory.read8_write8_ne _ _ _ _ (by omega), Memory.read8_write8_same]
  · rw [Memory.read8_write8_ne _ _ _ _ (by omega), Memory.read8_write8_ne _ _ _ _ (by omega),
      Memory.read8_write8_same]
  · rw [Memory.read8_write8_ne _ _ _ _ (by omega), Memory.read8_write8_same]

/-- A word is its four bytes. -/
theorem wordOfBytes_extract (v : Word) :
    wordOfBytes (v.extractLsb' 24 8) (v.extractLsb' 16 8) (v.extractLsb' 8 8) (v.extractLsb' 0 8)
      = v := by
  unfold wordOfBytes
  ext i hi
  simp only [BitVec.getElem_append, BitVec.getElem_extractLsb']
  split
  · simp [BitVec.getLsbD_eq_getElem hi]
  · split
    · have : 8 + (i - 8) = i := by omega
      simp [this, BitVec.getLsbD_eq_getElem hi]
    · split
      · have : 16 + (i - 8 - 8) = i := by omega
        simp [this, BitVec.getLsbD_eq_getElem hi]
      · have : 24 + (i - 8 - 8 - 8) = i := by omega
        simp [this, BitVec.getLsbD_eq_getElem hi]

/-- Reading the word that was written. -/
@[simp] theorem Memory.read32_write32_same (m : Memory) (a : Nat) (v : Word) :
    (m.write32 a v).read32 a = v := by
  obtain ⟨h0, h1, h2, h3⟩ := Memory.read8_write32 m a v
  unfold Memory.read32
  rw [h0, h1, h2, h3, wordOfBytes_extract]

/-- Reading a word that shares no byte with the one that was written. -/
theorem Memory.read32_write_outside (m : Memory) (a b : Nat) (v : Word) (size : Size)
    (h : b + 4 ≤ a ∨ a + size.bytes ≤ b) : (m.write a v size).read32 b = m.read32 b := by
  unfold Memory.read32
  rw [Memory.read8_write_outside _ _ _ _ _ (by omega),
    Memory.read8_write_outside _ _ _ _ _ (by omega),
    Memory.read8_write_outside _ _ _ _ _ (by omega),
    Memory.read8_write_outside _ _ _ _ _ (by omega)]

/-! ### The canonical form -/

theorem Memory.insert_mem (m : Memory) (k : Nat) (b : Byte) (c : Nat × Byte)
    (h : c ∈ m.insert k b) : c = (k, b) ∨ c ∈ m := by
  induction m with
  | nil => simpa [Memory.insert] using h
  | cons x m ih =>
    obtain ⟨a, d⟩ := x
    unfold Memory.insert at h
    split at h
    · simpa using h
    · rcases List.mem_cons.mp h with h | h
      · exact .inr (by simp [h])
      · rcases ih h with h | h
        · exact .inl h
        · exact .inr (by simp [h])

theorem Memory.insert_sorted (m : Memory) (k : Nat) (b : Byte) (h : ∀ c ∈ m, c.1 ≠ k)
    (hs : m.Pairwise (fun x y => x.1 < y.1)) :
    (m.insert k b).Pairwise (fun x y => x.1 < y.1) := by
  induction m with
  | nil => simp [Memory.insert]
  | cons x m ih =>
    obtain ⟨a, d⟩ := x
    obtain ⟨hx, hm⟩ := List.pairwise_cons.mp hs
    have ha : a ≠ k := h (a, d) (by simp)
    unfold Memory.insert
    split
    · next hk =>
      refine List.pairwise_cons.mpr ⟨fun c hc => ?_, hs⟩
      rcases List.mem_cons.mp hc with rfl | hc
      · exact hk
      · exact Nat.lt_trans hk (hx c hc)
    · next hk =>
      refine List.pairwise_cons.mpr ⟨fun c hc => ?_, ih (fun c hc => h c (by simp [hc])) hm⟩
      rcases Memory.insert_mem m k b c hc with rfl | hc
      · show a < k
        omega
      · exact hx c hc

/-- Writing a byte keeps the canonical form. -/
theorem Memory.write8_wf (m : Memory) (k : Nat) (b : Byte) (h : m.wf) : (m.write8 k b).wf := by
  have hf : (m.filter (fun c => c.1 != k)).Pairwise (fun x y => x.1 < y.1) :=
    List.Pairwise.filter _ h.1
  have hu : ∀ c ∈ m.filter (fun c => c.1 != k), c.2 ≠ Memory.unlisted :=
    fun c hc => h.2 c (List.mem_filter.mp hc).1
  unfold Memory.write8
  simp only []
  split
  · exact ⟨hf, hu⟩
  · next hb =>
    refine ⟨Memory.insert_sorted _ _ _ (Memory.filter_absent m k) hf, fun c hc => ?_⟩
    rcases Memory.insert_mem _ _ _ _ hc with rfl | hc
    · exact hb
    · exact hu c hc

/-- Writing a word keeps the canonical form. -/
theorem Memory.write32_wf (m : Memory) (a : Nat) (v : Word) (h : m.wf) : (m.write32 a v).wf :=
  Memory.write8_wf _ _ _ (Memory.write8_wf _ _ _ (Memory.write8_wf _ _ _ (Memory.write8_wf _ _ _ h)))

/-- Every write keeps the canonical form. -/
theorem Memory.write_wf (m : Memory) (a : Nat) (v : Word) (size : Size) (h : m.wf) :
    (m.write a v size).wf := by
  cases size
  · exact Memory.write8_wf _ _ _ h
  · exact Memory.write8_wf _ _ _ (Memory.write8_wf _ _ _ h)
  · exact Memory.write32_wf _ _ _ h
  · exact Memory.write32_wf _ _ _ h

/-- The memory right after reset has the canonical form. -/
theorem Memory.reset_wf : State.reset.mem.wf := ⟨List.Pairwise.nil, fun _ h => nomatch h⟩

end Sys2Proof.Machine
end

