-- ==== Sys2Proof/Laws/State.lean ====
section
/-! SUPPORT. The fields that each named update of the state leaves alone. -/

namespace Sys2Proof.Machine

/-! ### advance -/

@[simp] theorem advance_cfg (s : State) : (advance s).cfg = s.cfg := rfl
@[simp] theorem advance_mode (s : State) : (advance s).mode = s.mode := rfl
@[simp] theorem advance_pbError (s : State) : (advance s).pbError = s.pbError := rfl
@[simp] theorem advance_annul (s : State) : (advance s).annul = s.annul := rfl
@[simp] theorem advance_globals (s : State) : (advance s).globals = s.globals := rfl
@[simp] theorem advance_windowed (s : State) : (advance s).windowed = s.windowed := rfl
@[simp] theorem advance_psr (s : State) : (advance s).psr = s.psr := rfl
@[simp] theorem advance_wim (s : State) : (advance s).wim = s.wim := rfl
@[simp] theorem advance_tbr (s : State) : (advance s).tbr = s.tbr := rfl
@[simp] theorem advance_y (s : State) : (advance s).y = s.y := rfl
@[simp] theorem advance_asr (s : State) : (advance s).asr = s.asr := rfl
@[simp] theorem advance_fregs (s : State) : (advance s).fregs = s.fregs := rfl
@[simp] theorem advance_fsr (s : State) : (advance s).fsr = s.fsr := rfl
@[simp] theorem advance_fpuMode (s : State) : (advance s).fpuMode = s.fpuMode := rfl
@[simp] theorem advance_fpuQueue (s : State) : (advance s).fpuQueue = s.fpuQueue := rfl
@[simp] theorem advance_fq (s : State) : (advance s).fq = s.fq := rfl
@[simp] theorem advance_cp (s : State) : (advance s).cp = s.cp := rfl
@[simp] theorem advance_cpPending (s : State) : (advance s).cpPending = s.cpPending := rfl
@[simp] theorem advance_pending (s : State) : (advance s).pending = s.pending := rfl
@[simp] theorem advance_recentWrites (s : State) : (advance s).recentWrites = s.recentWrites := rfl
@[simp] theorem advance_storeBarrierPending (s : State) :
    (advance s).storeBarrierPending = s.storeBarrierPending :=
  rfl
@[simp] theorem advance_psoMode (s : State) : (advance s).psoMode = s.psoMode := rfl
@[simp] theorem advance_blockByte (s : State) : (advance s).blockByte = s.blockByte := rfl
@[simp] theorem advance_blockWord (s : State) : (advance s).blockWord = s.blockWord := rfl
@[simp] theorem advance_mem (s : State) : (advance s).mem = s.mem := rfl
@[simp] theorem advance_staleWords (s : State) : (advance s).staleWords = s.staleWords := rfl
@[simp] theorem advance_ioTrace (s : State) : (advance s).ioTrace = s.ioTrace := rfl
@[simp] theorem advance_mmu (s : State) : (advance s).mmu = s.mmu := rfl
@[simp] theorem advance_instruction (s : State) : (advance s).instruction = s.instruction := rfl
@[simp] theorem advance_fccWindow (s : State) : (advance s).fccWindow = s.fccWindow := rfl
@[simp] theorem advance_inputs (s : State) : (advance s).inputs = s.inputs := rfl
@[simp] theorem advance_now (s : State) : (advance s).now = s.now := rfl
@[simp] theorem advance_freeDraws (s : State) : (advance s).freeDraws = s.freeDraws := rfl

/-! ### setFreg -/

@[simp] theorem setFreg_cfg (s : State) (n : RegNum) (v : Word) : (setFreg s n v).cfg = s.cfg := rfl
@[simp] theorem setFreg_mode (s : State) (n : RegNum) (v : Word) : (setFreg s n v).mode = s.mode :=
  rfl
@[simp] theorem setFreg_pbError (s : State) (n : RegNum) (v : Word) :
    (setFreg s n v).pbError = s.pbError :=
  rfl
@[simp] theorem setFreg_pc (s : State) (n : RegNum) (v : Word) : (setFreg s n v).pc = s.pc := rfl
@[simp] theorem setFreg_npc (s : State) (n : RegNum) (v : Word) : (setFreg s n v).npc = s.npc := rfl
@[simp] theorem setFreg_annul (s : State) (n : RegNum) (v : Word) :
    (setFreg s n v).annul = s.annul :=
  rfl
@[simp] theorem setFreg_globals (s : State) (n : RegNum) (v : Word) :
    (setFreg s n v).globals = s.globals :=
  rfl
@[simp] theorem setFreg_windowed (s : State) (n : RegNum) (v : Word) :
    (setFreg s n v).windowed = s.windowed :=
  rfl
@[simp] theorem setFreg_psr (s : State) (n : RegNum) (v : Word) : (setFreg s n v).psr = s.psr := rfl
@[simp] theorem setFreg_wim (s : State) (n : RegNum) (v : Word) : (setFreg s n v).wim = s.wim := rfl
@[simp] theorem setFreg_tbr (s : State) (n : RegNum) (v : Word) : (setFreg s n v).tbr = s.tbr := rfl
@[simp] theorem setFreg_y (s : State) (n : RegNum) (v : Word) : (setFreg s n v).y = s.y := rfl
@[simp] theorem setFreg_asr (s : State) (n : RegNum) (v : Word) : (setFreg s n v).asr = s.asr := rfl
@[simp] theorem setFreg_fsr (s : State) (n : RegNum) (v : Word) : (setFreg s n v).fsr = s.fsr := rfl
@[simp] theorem setFreg_fpuMode (s : State) (n : RegNum) (v : Word) :
    (setFreg s n v).fpuMode = s.fpuMode :=
  rfl
@[simp] theorem setFreg_fpuQueue (s : State) (n : RegNum) (v : Word) :
    (setFreg s n v).fpuQueue = s.fpuQueue :=
  rfl
@[simp] theorem setFreg_fq (s : State) (n : RegNum) (v : Word) : (setFreg s n v).fq = s.fq := rfl
@[simp] theorem setFreg_cp (s : State) (n : RegNum) (v : Word) : (setFreg s n v).cp = s.cp := rfl
@[simp] theorem setFreg_cpPending (s : State) (n : RegNum) (v : Word) :
    (setFreg s n v).cpPending = s.cpPending :=
  rfl
@[simp] theorem setFreg_pending (s : State) (n : RegNum) (v : Word) :
    (setFreg s n v).pending = s.pending :=
  rfl
@[simp] theorem setFreg_recentWrites (s : State) (n : RegNum) (v : Word) :
    (setFreg s n v).recentWrites = s.recentWrites :=
  rfl
@[simp] theorem setFreg_storeBarrierPending (s : State) (n : RegNum) (v : Word) :
    (setFreg s n v).storeBarrierPending = s.storeBarrierPending :=
  rfl
@[simp] theorem setFreg_psoMode (s : State) (n : RegNum) (v : Word) :
    (setFreg s n v).psoMode = s.psoMode :=
  rfl
@[simp] theorem setFreg_blockByte (s : State) (n : RegNum) (v : Word) :
    (setFreg s n v).blockByte = s.blockByte :=
  rfl
@[simp] theorem setFreg_blockWord (s : State) (n : RegNum) (v : Word) :
    (setFreg s n v).blockWord = s.blockWord :=
  rfl
@[simp] theorem setFreg_mem (s : State) (n : RegNum) (v : Word) : (setFreg s n v).mem = s.mem := rfl
@[simp] theorem setFreg_staleWords (s : State) (n : RegNum) (v : Word) :
    (setFreg s n v).staleWords = s.staleWords :=
  rfl
@[simp] theorem setFreg_ioTrace (s : State) (n : RegNum) (v : Word) :
    (setFreg s n v).ioTrace = s.ioTrace :=
  rfl
@[simp] theorem setFreg_mmu (s : State) (n : RegNum) (v : Word) : (setFreg s n v).mmu = s.mmu := rfl
@[simp] theorem setFreg_instruction (s : State) (n : RegNum) (v : Word) :
    (setFreg s n v).instruction = s.instruction :=
  rfl
@[simp] theorem setFreg_fccWindow (s : State) (n : RegNum) (v : Word) :
    (setFreg s n v).fccWindow = s.fccWindow :=
  rfl
@[simp] theorem setFreg_inputs (s : State) (n : RegNum) (v : Word) :
    (setFreg s n v).inputs = s.inputs :=
  rfl
@[simp] theorem setFreg_now (s : State) (n : RegNum) (v : Word) : (setFreg s n v).now = s.now := rfl
@[simp] theorem setFreg_freeDraws (s : State) (n : RegNum) (v : Word) :
    (setFreg s n v).freeDraws = s.freeDraws :=
  rfl

/-! ### setFregDouble -/

@[simp] theorem setFregDouble_cfg (s : State) (n : RegNum) (v : BitVec 64) :
    (setFregDouble s n v).cfg = s.cfg :=
  rfl
@[simp] theorem setFregDouble_mode (s : State) (n : RegNum) (v : BitVec 64) :
    (setFregDouble s n v).mode = s.mode :=
  rfl
@[simp] theorem setFregDouble_pbError (s : State) (n : RegNum) (v : BitVec 64) :
    (setFregDouble s n v).pbError = s.pbError :=
  rfl
@[simp] theorem setFregDouble_pc (s : State) (n : RegNum) (v : BitVec 64) :
    (setFregDouble s n v).pc = s.pc :=
  rfl
@[simp] theorem setFregDouble_npc (s : State) (n : RegNum) (v : BitVec 64) :
    (setFregDouble s n v).npc = s.npc :=
  rfl
@[simp] theorem setFregDouble_annul (s : State) (n : RegNum) (v : BitVec 64) :
    (setFregDouble s n v).annul = s.annul :=
  rfl
@[simp] theorem setFregDouble_globals (s : State) (n : RegNum) (v : BitVec 64) :
    (setFregDouble s n v).globals = s.globals :=
  rfl
@[simp] theorem setFregDouble_windowed (s : State) (n : RegNum) (v : BitVec 64) :
    (setFregDouble s n v).windowed = s.windowed :=
  rfl
@[simp] theorem setFregDouble_psr (s : State) (n : RegNum) (v : BitVec 64) :
    (setFregDouble s n v).psr = s.psr :=
  rfl
@[simp] theorem setFregDouble_wim (s : State) (n : RegNum) (v : BitVec 64) :
    (setFregDouble s n v).wim = s.wim :=
  rfl
@[simp] theorem setFregDouble_tbr (s : State) (n : RegNum) (v : BitVec 64) :
    (setFregDouble s n v).tbr = s.tbr :=
  rfl
@[simp] theorem setFregDouble_y (s : State) (n : RegNum) (v : BitVec 64) :
    (setFregDouble s n v).y = s.y :=
  rfl
@[simp] theorem setFregDouble_asr (s : State) (n : RegNum) (v : BitVec 64) :
    (setFregDouble s n v).asr = s.asr :=
  rfl
@[simp] theorem setFregDouble_fsr (s : State) (n : RegNum) (v : BitVec 64) :
    (setFregDouble s n v).fsr = s.fsr :=
  rfl
@[simp] theorem setFregDouble_fpuMode (s : State) (n : RegNum) (v : BitVec 64) :
    (setFregDouble s n v).fpuMode = s.fpuMode :=
  rfl
@[simp] theorem setFregDouble_fpuQueue (s : State) (n : RegNum) (v : BitVec 64) :
    (setFregDouble s n v).fpuQueue = s.fpuQueue :=
  rfl
@[simp] theorem setFregDouble_fq (s : State) (n : RegNum) (v : BitVec 64) :
    (setFregDouble s n v).fq = s.fq :=
  rfl
@[simp] theorem setFregDouble_cp (s : State) (n : RegNum) (v : BitVec 64) :
    (setFregDouble s n v).cp = s.cp :=
  rfl
@[simp] theorem setFregDouble_cpPending (s : State) (n : RegNum) (v : BitVec 64) :
    (setFregDouble s n v).cpPending = s.cpPending :=
  rfl
@[simp] theorem setFregDouble_pending (s : State) (n : RegNum) (v : BitVec 64) :
    (setFregDouble s n v).pending = s.pending :=
  rfl
@[simp] theorem setFregDouble_recentWrites (s : State) (n : RegNum) (v : BitVec 64) :
    (setFregDouble s n v).recentWrites = s.recentWrites :=
  rfl
@[simp] theorem setFregDouble_storeBarrierPending (s : State) (n : RegNum) (v : BitVec 64) :
    (setFregDouble s n v).storeBarrierPending = s.storeBarrierPending :=
  rfl
@[simp] theorem setFregDouble_psoMode (s : State) (n : RegNum) (v : BitVec 64) :
    (setFregDouble s n v).psoMode = s.psoMode :=
  rfl
@[simp] theorem setFregDouble_blockByte (s : State) (n : RegNum) (v : BitVec 64) :
    (setFregDouble s n v).blockByte = s.blockByte :=
  rfl
@[simp] theorem setFregDouble_blockWord (s : State) (n : RegNum) (v : BitVec 64) :
    (setFregDouble s n v).blockWord = s.blockWord :=
  rfl
@[simp] theorem setFregDouble_mem (s : State) (n : RegNum) (v : BitVec 64) :
    (setFregDouble s n v).mem = s.mem :=
  rfl
@[simp] theorem setFregDouble_staleWords (s : State) (n : RegNum) (v : BitVec 64) :
    (setFregDouble s n v).staleWords = s.staleWords :=
  rfl
@[simp] theorem setFregDouble_ioTrace (s : State) (n : RegNum) (v : BitVec 64) :
    (setFregDouble s n v).ioTrace = s.ioTrace :=
  rfl
@[simp] theorem setFregDouble_mmu (s : State) (n : RegNum) (v : BitVec 64) :
    (setFregDouble s n v).mmu = s.mmu :=
  rfl
@[simp] theorem setFregDouble_instruction (s : State) (n : RegNum) (v : BitVec 64) :
    (setFregDouble s n v).instruction = s.instruction :=
  rfl
@[simp] theorem setFregDouble_fccWindow (s : State) (n : RegNum) (v : BitVec 64) :
    (setFregDouble s n v).fccWindow = s.fccWindow :=
  rfl
@[simp] theorem setFregDouble_inputs (s : State) (n : RegNum) (v : BitVec 64) :
    (setFregDouble s n v).inputs = s.inputs :=
  rfl
@[simp] theorem setFregDouble_now (s : State) (n : RegNum) (v : BitVec 64) :
    (setFregDouble s n v).now = s.now :=
  rfl
@[simp] theorem setFregDouble_freeDraws (s : State) (n : RegNum) (v : BitVec 64) :
    (setFregDouble s n v).freeDraws = s.freeDraws :=
  rfl

/-! ### setFregQuad -/

@[simp] theorem setFregQuad_cfg (s : State) (n : RegNum) (v : BitVec 128) :
    (setFregQuad s n v).cfg = s.cfg :=
  rfl
@[simp] theorem setFregQuad_mode (s : State) (n : RegNum) (v : BitVec 128) :
    (setFregQuad s n v).mode = s.mode :=
  rfl
@[simp] theorem setFregQuad_pbError (s : State) (n : RegNum) (v : BitVec 128) :
    (setFregQuad s n v).pbError = s.pbError :=
  rfl
@[simp] theorem setFregQuad_pc (s : State) (n : RegNum) (v : BitVec 128) :
    (setFregQuad s n v).pc = s.pc :=
  rfl
@[simp] theorem setFregQuad_npc (s : State) (n : RegNum) (v : BitVec 128) :
    (setFregQuad s n v).npc = s.npc :=
  rfl
@[simp] theorem setFregQuad_annul (s : State) (n : RegNum) (v : BitVec 128) :
    (setFregQuad s n v).annul = s.annul :=
  rfl
@[simp] theorem setFregQuad_globals (s : State) (n : RegNum) (v : BitVec 128) :
    (setFregQuad s n v).globals = s.globals :=
  rfl
@[simp] theorem setFregQuad_windowed (s : State) (n : RegNum) (v : BitVec 128) :
    (setFregQuad s n v).windowed = s.windowed :=
  rfl
@[simp] theorem setFregQuad_psr (s : State) (n : RegNum) (v : BitVec 128) :
    (setFregQuad s n v).psr = s.psr :=
  rfl
@[simp] theorem setFregQuad_wim (s : State) (n : RegNum) (v : BitVec 128) :
    (setFregQuad s n v).wim = s.wim :=
  rfl
@[simp] theorem setFregQuad_tbr (s : State) (n : RegNum) (v : BitVec 128) :
    (setFregQuad s n v).tbr = s.tbr :=
  rfl
@[simp] theorem setFregQuad_y (s : State) (n : RegNum) (v : BitVec 128) :
    (setFregQuad s n v).y = s.y :=
  rfl
@[simp] theorem setFregQuad_asr (s : State) (n : RegNum) (v : BitVec 128) :
    (setFregQuad s n v).asr = s.asr :=
  rfl
@[simp] theorem setFregQuad_fsr (s : State) (n : RegNum) (v : BitVec 128) :
    (setFregQuad s n v).fsr = s.fsr :=
  rfl
@[simp] theorem setFregQuad_fpuMode (s : State) (n : RegNum) (v : BitVec 128) :
    (setFregQuad s n v).fpuMode = s.fpuMode :=
  rfl
@[simp] theorem setFregQuad_fpuQueue (s : State) (n : RegNum) (v : BitVec 128) :
    (setFregQuad s n v).fpuQueue = s.fpuQueue :=
  rfl
@[simp] theorem setFregQuad_fq (s : State) (n : RegNum) (v : BitVec 128) :
    (setFregQuad s n v).fq = s.fq :=
  rfl
@[simp] theorem setFregQuad_cp (s : State) (n : RegNum) (v : BitVec 128) :
    (setFregQuad s n v).cp = s.cp :=
  rfl
@[simp] theorem setFregQuad_cpPending (s : State) (n : RegNum) (v : BitVec 128) :
    (setFregQuad s n v).cpPending = s.cpPending :=
  rfl
@[simp] theorem setFregQuad_pending (s : State) (n : RegNum) (v : BitVec 128) :
    (setFregQuad s n v).pending = s.pending :=
  rfl
@[simp] theorem setFregQuad_recentWrites (s : State) (n : RegNum) (v : BitVec 128) :
    (setFregQuad s n v).recentWrites = s.recentWrites :=
  rfl
@[simp] theorem setFregQuad_storeBarrierPending (s : State) (n : RegNum) (v : BitVec 128) :
    (setFregQuad s n v).storeBarrierPending = s.storeBarrierPending :=
  rfl
@[simp] theorem setFregQuad_psoMode (s : State) (n : RegNum) (v : BitVec 128) :
    (setFregQuad s n v).psoMode = s.psoMode :=
  rfl
@[simp] theorem setFregQuad_blockByte (s : State) (n : RegNum) (v : BitVec 128) :
    (setFregQuad s n v).blockByte = s.blockByte :=
  rfl
@[simp] theorem setFregQuad_blockWord (s : State) (n : RegNum) (v : BitVec 128) :
    (setFregQuad s n v).blockWord = s.blockWord :=
  rfl
@[simp] theorem setFregQuad_mem (s : State) (n : RegNum) (v : BitVec 128) :
    (setFregQuad s n v).mem = s.mem :=
  rfl
@[simp] theorem setFregQuad_staleWords (s : State) (n : RegNum) (v : BitVec 128) :
    (setFregQuad s n v).staleWords = s.staleWords :=
  rfl
@[simp] theorem setFregQuad_ioTrace (s : State) (n : RegNum) (v : BitVec 128) :
    (setFregQuad s n v).ioTrace = s.ioTrace :=
  rfl
@[simp] theorem setFregQuad_mmu (s : State) (n : RegNum) (v : BitVec 128) :
    (setFregQuad s n v).mmu = s.mmu :=
  rfl
@[simp] theorem setFregQuad_instruction (s : State) (n : RegNum) (v : BitVec 128) :
    (setFregQuad s n v).instruction = s.instruction :=
  rfl
@[simp] theorem setFregQuad_fccWindow (s : State) (n : RegNum) (v : BitVec 128) :
    (setFregQuad s n v).fccWindow = s.fccWindow :=
  rfl
@[simp] theorem setFregQuad_inputs (s : State) (n : RegNum) (v : BitVec 128) :
    (setFregQuad s n v).inputs = s.inputs :=
  rfl
@[simp] theorem setFregQuad_now (s : State) (n : RegNum) (v : BitVec 128) :
    (setFregQuad s n v).now = s.now :=
  rfl
@[simp] theorem setFregQuad_freeDraws (s : State) (n : RegNum) (v : BitVec 128) :
    (setFregQuad s n v).freeDraws = s.freeDraws :=
  rfl

/-! ### clearBarrier -/

@[simp] theorem clearBarrier_cfg (s : State) : (clearBarrier s).cfg = s.cfg := rfl
@[simp] theorem clearBarrier_mode (s : State) : (clearBarrier s).mode = s.mode := rfl
@[simp] theorem clearBarrier_pbError (s : State) : (clearBarrier s).pbError = s.pbError := rfl
@[simp] theorem clearBarrier_pc (s : State) : (clearBarrier s).pc = s.pc := rfl
@[simp] theorem clearBarrier_npc (s : State) : (clearBarrier s).npc = s.npc := rfl
@[simp] theorem clearBarrier_annul (s : State) : (clearBarrier s).annul = s.annul := rfl
@[simp] theorem clearBarrier_globals (s : State) : (clearBarrier s).globals = s.globals := rfl
@[simp] theorem clearBarrier_windowed (s : State) : (clearBarrier s).windowed = s.windowed := rfl
@[simp] theorem clearBarrier_psr (s : State) : (clearBarrier s).psr = s.psr := rfl
@[simp] theorem clearBarrier_wim (s : State) : (clearBarrier s).wim = s.wim := rfl
@[simp] theorem clearBarrier_tbr (s : State) : (clearBarrier s).tbr = s.tbr := rfl
@[simp] theorem clearBarrier_y (s : State) : (clearBarrier s).y = s.y := rfl
@[simp] theorem clearBarrier_asr (s : State) : (clearBarrier s).asr = s.asr := rfl
@[simp] theorem clearBarrier_fregs (s : State) : (clearBarrier s).fregs = s.fregs := rfl
@[simp] theorem clearBarrier_fsr (s : State) : (clearBarrier s).fsr = s.fsr := rfl
@[simp] theorem clearBarrier_fpuMode (s : State) : (clearBarrier s).fpuMode = s.fpuMode := rfl
@[simp] theorem clearBarrier_fpuQueue (s : State) : (clearBarrier s).fpuQueue = s.fpuQueue := rfl
@[simp] theorem clearBarrier_fq (s : State) : (clearBarrier s).fq = s.fq := rfl
@[simp] theorem clearBarrier_cp (s : State) : (clearBarrier s).cp = s.cp := rfl
@[simp] theorem clearBarrier_cpPending (s : State) : (clearBarrier s).cpPending = s.cpPending := rfl
@[simp] theorem clearBarrier_pending (s : State) : (clearBarrier s).pending = s.pending := rfl
@[simp] theorem clearBarrier_recentWrites (s : State) :
    (clearBarrier s).recentWrites = s.recentWrites :=
  rfl
@[simp] theorem clearBarrier_psoMode (s : State) : (clearBarrier s).psoMode = s.psoMode := rfl
@[simp] theorem clearBarrier_blockByte (s : State) : (clearBarrier s).blockByte = s.blockByte := rfl
@[simp] theorem clearBarrier_blockWord (s : State) : (clearBarrier s).blockWord = s.blockWord := rfl
@[simp] theorem clearBarrier_mem (s : State) : (clearBarrier s).mem = s.mem := rfl
@[simp] theorem clearBarrier_staleWords (s : State) : (clearBarrier s).staleWords = s.staleWords :=
  rfl
@[simp] theorem clearBarrier_ioTrace (s : State) : (clearBarrier s).ioTrace = s.ioTrace := rfl
@[simp] theorem clearBarrier_mmu (s : State) : (clearBarrier s).mmu = s.mmu := rfl
@[simp] theorem clearBarrier_instruction (s : State) :
    (clearBarrier s).instruction = s.instruction :=
  rfl
@[simp] theorem clearBarrier_fccWindow (s : State) : (clearBarrier s).fccWindow = s.fccWindow := rfl
@[simp] theorem clearBarrier_inputs (s : State) : (clearBarrier s).inputs = s.inputs := rfl
@[simp] theorem clearBarrier_now (s : State) : (clearBarrier s).now = s.now := rfl
@[simp] theorem clearBarrier_freeDraws (s : State) : (clearBarrier s).freeDraws = s.freeDraws := rfl

/-! ### pdcEvict -/

@[simp] theorem pdcEvict_cfg (s : State) : (pdcEvict s).cfg = s.cfg := rfl
@[simp] theorem pdcEvict_mode (s : State) : (pdcEvict s).mode = s.mode := rfl
@[simp] theorem pdcEvict_pbError (s : State) : (pdcEvict s).pbError = s.pbError := rfl
@[simp] theorem pdcEvict_pc (s : State) : (pdcEvict s).pc = s.pc := rfl
@[simp] theorem pdcEvict_npc (s : State) : (pdcEvict s).npc = s.npc := rfl
@[simp] theorem pdcEvict_annul (s : State) : (pdcEvict s).annul = s.annul := rfl
@[simp] theorem pdcEvict_globals (s : State) : (pdcEvict s).globals = s.globals := rfl
@[simp] theorem pdcEvict_windowed (s : State) : (pdcEvict s).windowed = s.windowed := rfl
@[simp] theorem pdcEvict_psr (s : State) : (pdcEvict s).psr = s.psr := rfl
@[simp] theorem pdcEvict_wim (s : State) : (pdcEvict s).wim = s.wim := rfl
@[simp] theorem pdcEvict_tbr (s : State) : (pdcEvict s).tbr = s.tbr := rfl
@[simp] theorem pdcEvict_y (s : State) : (pdcEvict s).y = s.y := rfl
@[simp] theorem pdcEvict_asr (s : State) : (pdcEvict s).asr = s.asr := rfl
@[simp] theorem pdcEvict_fregs (s : State) : (pdcEvict s).fregs = s.fregs := rfl
@[simp] theorem pdcEvict_fsr (s : State) : (pdcEvict s).fsr = s.fsr := rfl
@[simp] theorem pdcEvict_fpuMode (s : State) : (pdcEvict s).fpuMode = s.fpuMode := rfl
@[simp] theorem pdcEvict_fpuQueue (s : State) : (pdcEvict s).fpuQueue = s.fpuQueue := rfl
@[simp] theorem pdcEvict_fq (s : State) : (pdcEvict s).fq = s.fq := rfl
@[simp] theorem pdcEvict_cp (s : State) : (pdcEvict s).cp = s.cp := rfl
@[simp] theorem pdcEvict_cpPending (s : State) : (pdcEvict s).cpPending = s.cpPending := rfl
@[simp] theorem pdcEvict_pending (s : State) : (pdcEvict s).pending = s.pending := rfl
@[simp] theorem pdcEvict_recentWrites (s : State) : (pdcEvict s).recentWrites = s.recentWrites :=
  rfl
@[simp] theorem pdcEvict_storeBarrierPending (s : State) :
    (pdcEvict s).storeBarrierPending = s.storeBarrierPending :=
  rfl
@[simp] theorem pdcEvict_psoMode (s : State) : (pdcEvict s).psoMode = s.psoMode := rfl
@[simp] theorem pdcEvict_blockByte (s : State) : (pdcEvict s).blockByte = s.blockByte := rfl
@[simp] theorem pdcEvict_blockWord (s : State) : (pdcEvict s).blockWord = s.blockWord := rfl
@[simp] theorem pdcEvict_mem (s : State) : (pdcEvict s).mem = s.mem := rfl
@[simp] theorem pdcEvict_staleWords (s : State) : (pdcEvict s).staleWords = s.staleWords := rfl
@[simp] theorem pdcEvict_ioTrace (s : State) : (pdcEvict s).ioTrace = s.ioTrace := rfl
@[simp] theorem pdcEvict_instruction (s : State) : (pdcEvict s).instruction = s.instruction := rfl
@[simp] theorem pdcEvict_fccWindow (s : State) : (pdcEvict s).fccWindow = s.fccWindow := rfl
@[simp] theorem pdcEvict_inputs (s : State) : (pdcEvict s).inputs = s.inputs := rfl
@[simp] theorem pdcEvict_now (s : State) : (pdcEvict s).now = s.now := rfl

/-! ### pdcInsert -/

@[simp] theorem pdcInsert_cfg (s : State) (xs : List PdcEntry) : (pdcInsert s xs).cfg = s.cfg := rfl
@[simp] theorem pdcInsert_mode (s : State) (xs : List PdcEntry) : (pdcInsert s xs).mode = s.mode :=
  rfl
@[simp] theorem pdcInsert_pbError (s : State) (xs : List PdcEntry) :
    (pdcInsert s xs).pbError = s.pbError :=
  rfl
@[simp] theorem pdcInsert_pc (s : State) (xs : List PdcEntry) : (pdcInsert s xs).pc = s.pc := rfl
@[simp] theorem pdcInsert_npc (s : State) (xs : List PdcEntry) : (pdcInsert s xs).npc = s.npc := rfl
@[simp] theorem pdcInsert_annul (s : State) (xs : List PdcEntry) :
    (pdcInsert s xs).annul = s.annul :=
  rfl
@[simp] theorem pdcInsert_globals (s : State) (xs : List PdcEntry) :
    (pdcInsert s xs).globals = s.globals :=
  rfl
@[simp] theorem pdcInsert_windowed (s : State) (xs : List PdcEntry) :
    (pdcInsert s xs).windowed = s.windowed :=
  rfl
@[simp] theorem pdcInsert_psr (s : State) (xs : List PdcEntry) : (pdcInsert s xs).psr = s.psr := rfl
@[simp] theorem pdcInsert_wim (s : State) (xs : List PdcEntry) : (pdcInsert s xs).wim = s.wim := rfl
@[simp] theorem pdcInsert_tbr (s : State) (xs : List PdcEntry) : (pdcInsert s xs).tbr = s.tbr := rfl
@[simp] theorem pdcInsert_y (s : State) (xs : List PdcEntry) : (pdcInsert s xs).y = s.y := rfl
@[simp] theorem pdcInsert_asr (s : State) (xs : List PdcEntry) : (pdcInsert s xs).asr = s.asr := rfl
@[simp] theorem pdcInsert_fregs (s : State) (xs : List PdcEntry) :
    (pdcInsert s xs).fregs = s.fregs :=
  rfl
@[simp] theorem pdcInsert_fsr (s : State) (xs : List PdcEntry) : (pdcInsert s xs).fsr = s.fsr := rfl
@[simp] theorem pdcInsert_fpuMode (s : State) (xs : List PdcEntry) :
    (pdcInsert s xs).fpuMode = s.fpuMode :=
  rfl
@[simp] theorem pdcInsert_fpuQueue (s : State) (xs : List PdcEntry) :
    (pdcInsert s xs).fpuQueue = s.fpuQueue :=
  rfl
@[simp] theorem pdcInsert_fq (s : State) (xs : List PdcEntry) : (pdcInsert s xs).fq = s.fq := rfl
@[simp] theorem pdcInsert_cp (s : State) (xs : List PdcEntry) : (pdcInsert s xs).cp = s.cp := rfl
@[simp] theorem pdcInsert_cpPending (s : State) (xs : List PdcEntry) :
    (pdcInsert s xs).cpPending = s.cpPending :=
  rfl
@[simp] theorem pdcInsert_pending (s : State) (xs : List PdcEntry) :
    (pdcInsert s xs).pending = s.pending :=
  rfl
@[simp] theorem pdcInsert_recentWrites (s : State) (xs : List PdcEntry) :
    (pdcInsert s xs).recentWrites = s.recentWrites :=
  rfl
@[simp] theorem pdcInsert_storeBarrierPending (s : State) (xs : List PdcEntry) :
    (pdcInsert s xs).storeBarrierPending = s.storeBarrierPending :=
  rfl
@[simp] theorem pdcInsert_psoMode (s : State) (xs : List PdcEntry) :
    (pdcInsert s xs).psoMode = s.psoMode :=
  rfl
@[simp] theorem pdcInsert_blockByte (s : State) (xs : List PdcEntry) :
    (pdcInsert s xs).blockByte = s.blockByte :=
  rfl
@[simp] theorem pdcInsert_blockWord (s : State) (xs : List PdcEntry) :
    (pdcInsert s xs).blockWord = s.blockWord :=
  rfl
@[simp] theorem pdcInsert_mem (s : State) (xs : List PdcEntry) : (pdcInsert s xs).mem = s.mem := rfl
@[simp] theorem pdcInsert_staleWords (s : State) (xs : List PdcEntry) :
    (pdcInsert s xs).staleWords = s.staleWords :=
  rfl
@[simp] theorem pdcInsert_ioTrace (s : State) (xs : List PdcEntry) :
    (pdcInsert s xs).ioTrace = s.ioTrace :=
  rfl
@[simp] theorem pdcInsert_instruction (s : State) (xs : List PdcEntry) :
    (pdcInsert s xs).instruction = s.instruction :=
  rfl
@[simp] theorem pdcInsert_fccWindow (s : State) (xs : List PdcEntry) :
    (pdcInsert s xs).fccWindow = s.fccWindow :=
  rfl
@[simp] theorem pdcInsert_inputs (s : State) (xs : List PdcEntry) :
    (pdcInsert s xs).inputs = s.inputs :=
  rfl
@[simp] theorem pdcInsert_now (s : State) (xs : List PdcEntry) : (pdcInsert s xs).now = s.now := rfl
@[simp] theorem pdcInsert_freeDraws (s : State) (xs : List PdcEntry) :
    (pdcInsert s xs).freeDraws = s.freeDraws :=
  rfl

/-! ### setRegIn -/

@[simp] theorem setRegIn_cfg (s : State) (w : BitVec 5) (n : RegNum) (v : Word) :
    (setRegIn s w n v).cfg = s.cfg :=
  by unfold setRegIn; split <;> (try split) <;> rfl
@[simp] theorem setRegIn_mode (s : State) (w : BitVec 5) (n : RegNum) (v : Word) :
    (setRegIn s w n v).mode = s.mode :=
  by unfold setRegIn; split <;> (try split) <;> rfl
@[simp] theorem setRegIn_pbError (s : State) (w : BitVec 5) (n : RegNum) (v : Word) :
    (setRegIn s w n v).pbError = s.pbError :=
  by unfold setRegIn; split <;> (try split) <;> rfl
@[simp] theorem setRegIn_pc (s : State) (w : BitVec 5) (n : RegNum) (v : Word) :
    (setRegIn s w n v).pc = s.pc :=
  by unfold setRegIn; split <;> (try split) <;> rfl
@[simp] theorem setRegIn_npc (s : State) (w : BitVec 5) (n : RegNum) (v : Word) :
    (setRegIn s w n v).npc = s.npc :=
  by unfold setRegIn; split <;> (try split) <;> rfl
@[simp] theorem setRegIn_annul (s : State) (w : BitVec 5) (n : RegNum) (v : Word) :
    (setRegIn s w n v).annul = s.annul :=
  by unfold setRegIn; split <;> (try split) <;> rfl
@[simp] theorem setRegIn_psr (s : State) (w : BitVec 5) (n : RegNum) (v : Word) :
    (setRegIn s w n v).psr = s.psr :=
  by unfold setRegIn; split <;> (try split) <;> rfl
@[simp] theorem setRegIn_wim (s : State) (w : BitVec 5) (n : RegNum) (v : Word) :
    (setRegIn s w n v).wim = s.wim :=
  by unfold setRegIn; split <;> (try split) <;> rfl
@[simp] theorem setRegIn_tbr (s : State) (w : BitVec 5) (n : RegNum) (v : Word) :
    (setRegIn s w n v).tbr = s.tbr :=
  by unfold setRegIn; split <;> (try split) <;> rfl
@[simp] theorem setRegIn_y (s : State) (w : BitVec 5) (n : RegNum) (v : Word) :
    (setRegIn s w n v).y = s.y :=
  by unfold setRegIn; split <;> (try split) <;> rfl
@[simp] theorem setRegIn_asr (s : State) (w : BitVec 5) (n : RegNum) (v : Word) :
    (setRegIn s w n v).asr = s.asr :=
  by unfold setRegIn; split <;> (try split) <;> rfl
@[simp] theorem setRegIn_fregs (s : State) (w : BitVec 5) (n : RegNum) (v : Word) :
    (setRegIn s w n v).fregs = s.fregs :=
  by unfold setRegIn; split <;> (try split) <;> rfl
@[simp] theorem setRegIn_fsr (s : State) (w : BitVec 5) (n : RegNum) (v : Word) :
    (setRegIn s w n v).fsr = s.fsr :=
  by unfold setRegIn; split <;> (try split) <;> rfl
@[simp] theorem setRegIn_fpuMode (s : State) (w : BitVec 5) (n : RegNum) (v : Word) :
    (setRegIn s w n v).fpuMode = s.fpuMode :=
  by unfold setRegIn; split <;> (try split) <;> rfl
@[simp] theorem setRegIn_fpuQueue (s : State) (w : BitVec 5) (n : RegNum) (v : Word) :
    (setRegIn s w n v).fpuQueue = s.fpuQueue :=
  by unfold setRegIn; split <;> (try split) <;> rfl
@[simp] theorem setRegIn_fq (s : State) (w : BitVec 5) (n : RegNum) (v : Word) :
    (setRegIn s w n v).fq = s.fq :=
  by unfold setRegIn; split <;> (try split) <;> rfl
@[simp] theorem setRegIn_cp (s : State) (w : BitVec 5) (n : RegNum) (v : Word) :
    (setRegIn s w n v).cp = s.cp :=
  by unfold setRegIn; split <;> (try split) <;> rfl
@[simp] theorem setRegIn_cpPending (s : State) (w : BitVec 5) (n : RegNum) (v : Word) :
    (setRegIn s w n v).cpPending = s.cpPending :=
  by unfold setRegIn; split <;> (try split) <;> rfl
@[simp] theorem setRegIn_pending (s : State) (w : BitVec 5) (n : RegNum) (v : Word) :
    (setRegIn s w n v).pending = s.pending :=
  by unfold setRegIn; split <;> (try split) <;> rfl
@[simp] theorem setRegIn_recentWrites (s : State) (w : BitVec 5) (n : RegNum) (v : Word) :
    (setRegIn s w n v).recentWrites = s.recentWrites :=
  by unfold setRegIn; split <;> (try split) <;> rfl
@[simp] theorem setRegIn_storeBarrierPending (s : State) (w : BitVec 5) (n : RegNum) (v : Word) :
    (setRegIn s w n v).storeBarrierPending = s.storeBarrierPending :=
  by unfold setRegIn; split <;> (try split) <;> rfl
@[simp] theorem setRegIn_psoMode (s : State) (w : BitVec 5) (n : RegNum) (v : Word) :
    (setRegIn s w n v).psoMode = s.psoMode :=
  by unfold setRegIn; split <;> (try split) <;> rfl
@[simp] theorem setRegIn_blockByte (s : State) (w : BitVec 5) (n : RegNum) (v : Word) :
    (setRegIn s w n v).blockByte = s.blockByte :=
  by unfold setRegIn; split <;> (try split) <;> rfl
@[simp] theorem setRegIn_blockWord (s : State) (w : BitVec 5) (n : RegNum) (v : Word) :
    (setRegIn s w n v).blockWord = s.blockWord :=
  by unfold setRegIn; split <;> (try split) <;> rfl
@[simp] theorem setRegIn_mem (s : State) (w : BitVec 5) (n : RegNum) (v : Word) :
    (setRegIn s w n v).mem = s.mem :=
  by unfold setRegIn; split <;> (try split) <;> rfl
@[simp] theorem setRegIn_staleWords (s : State) (w : BitVec 5) (n : RegNum) (v : Word) :
    (setRegIn s w n v).staleWords = s.staleWords :=
  by unfold setRegIn; split <;> (try split) <;> rfl
@[simp] theorem setRegIn_ioTrace (s : State) (w : BitVec 5) (n : RegNum) (v : Word) :
    (setRegIn s w n v).ioTrace = s.ioTrace :=
  by unfold setRegIn; split <;> (try split) <;> rfl
@[simp] theorem setRegIn_mmu (s : State) (w : BitVec 5) (n : RegNum) (v : Word) :
    (setRegIn s w n v).mmu = s.mmu :=
  by unfold setRegIn; split <;> (try split) <;> rfl
@[simp] theorem setRegIn_instruction (s : State) (w : BitVec 5) (n : RegNum) (v : Word) :
    (setRegIn s w n v).instruction = s.instruction :=
  by unfold setRegIn; split <;> (try split) <;> rfl
@[simp] theorem setRegIn_fccWindow (s : State) (w : BitVec 5) (n : RegNum) (v : Word) :
    (setRegIn s w n v).fccWindow = s.fccWindow :=
  by unfold setRegIn; split <;> (try split) <;> rfl
@[simp] theorem setRegIn_inputs (s : State) (w : BitVec 5) (n : RegNum) (v : Word) :
    (setRegIn s w n v).inputs = s.inputs :=
  by unfold setRegIn; split <;> (try split) <;> rfl
@[simp] theorem setRegIn_now (s : State) (w : BitVec 5) (n : RegNum) (v : Word) :
    (setRegIn s w n v).now = s.now :=
  by unfold setRegIn; split <;> (try split) <;> rfl
@[simp] theorem setRegIn_freeDraws (s : State) (w : BitVec 5) (n : RegNum) (v : Word) :
    (setRegIn s w n v).freeDraws = s.freeDraws :=
  by unfold setRegIn; split <;> (try split) <;> rfl

/-! ### setReg -/

@[simp] theorem setReg_cfg (s : State) (n : RegNum) (v : Word) : (setReg s n v).cfg = s.cfg :=
  setRegIn_cfg s s.psr.cwp n v
@[simp] theorem setReg_mode (s : State) (n : RegNum) (v : Word) : (setReg s n v).mode = s.mode :=
  setRegIn_mode s s.psr.cwp n v
@[simp] theorem setReg_pbError (s : State) (n : RegNum) (v : Word) :
    (setReg s n v).pbError = s.pbError :=
  setRegIn_pbError s s.psr.cwp n v
@[simp] theorem setReg_pc (s : State) (n : RegNum) (v : Word) : (setReg s n v).pc = s.pc :=
  setRegIn_pc s s.psr.cwp n v
@[simp] theorem setReg_npc (s : State) (n : RegNum) (v : Word) : (setReg s n v).npc = s.npc :=
  setRegIn_npc s s.psr.cwp n v
@[simp] theorem setReg_annul (s : State) (n : RegNum) (v : Word) : (setReg s n v).annul = s.annul :=
  setRegIn_annul s s.psr.cwp n v
@[simp] theorem setReg_psr (s : State) (n : RegNum) (v : Word) : (setReg s n v).psr = s.psr :=
  setRegIn_psr s s.psr.cwp n v
@[simp] theorem setReg_wim (s : State) (n : RegNum) (v : Word) : (setReg s n v).wim = s.wim :=
  setRegIn_wim s s.psr.cwp n v
@[simp] theorem setReg_tbr (s : State) (n : RegNum) (v : Word) : (setReg s n v).tbr = s.tbr :=
  setRegIn_tbr s s.psr.cwp n v
@[simp] theorem setReg_y (s : State) (n : RegNum) (v : Word) : (setReg s n v).y = s.y :=
  setRegIn_y s s.psr.cwp n v
@[simp] theorem setReg_asr (s : State) (n : RegNum) (v : Word) : (setReg s n v).asr = s.asr :=
  setRegIn_asr s s.psr.cwp n v
@[simp] theorem setReg_fregs (s : State) (n : RegNum) (v : Word) : (setReg s n v).fregs = s.fregs :=
  setRegIn_fregs s s.psr.cwp n v
@[simp] theorem setReg_fsr (s : State) (n : RegNum) (v : Word) : (setReg s n v).fsr = s.fsr :=
  setRegIn_fsr s s.psr.cwp n v
@[simp] theorem setReg_fpuMode (s : State) (n : RegNum) (v : Word) :
    (setReg s n v).fpuMode = s.fpuMode :=
  setRegIn_fpuMode s s.psr.cwp n v
@[simp] theorem setReg_fpuQueue (s : State) (n : RegNum) (v : Word) :
    (setReg s n v).fpuQueue = s.fpuQueue :=
  setRegIn_fpuQueue s s.psr.cwp n v
@[simp] theorem setReg_fq (s : State) (n : RegNum) (v : Word) : (setReg s n v).fq = s.fq :=
  setRegIn_fq s s.psr.cwp n v
@[simp] theorem setReg_cp (s : State) (n : RegNum) (v : Word) : (setReg s n v).cp = s.cp :=
  setRegIn_cp s s.psr.cwp n v
@[simp] theorem setReg_cpPending (s : State) (n : RegNum) (v : Word) :
    (setReg s n v).cpPending = s.cpPending :=
  setRegIn_cpPending s s.psr.cwp n v
@[simp] theorem setReg_pending (s : State) (n : RegNum) (v : Word) :
    (setReg s n v).pending = s.pending :=
  setRegIn_pending s s.psr.cwp n v
@[simp] theorem setReg_recentWrites (s : State) (n : RegNum) (v : Word) :
    (setReg s n v).recentWrites = s.recentWrites :=
  setRegIn_recentWrites s s.psr.cwp n v
@[simp] theorem setReg_storeBarrierPending (s : State) (n : RegNum) (v : Word) :
    (setReg s n v).storeBarrierPending = s.storeBarrierPending :=
  setRegIn_storeBarrierPending s s.psr.cwp n v
@[simp] theorem setReg_psoMode (s : State) (n : RegNum) (v : Word) :
    (setReg s n v).psoMode = s.psoMode :=
  setRegIn_psoMode s s.psr.cwp n v
@[simp] theorem setReg_blockByte (s : State) (n : RegNum) (v : Word) :
    (setReg s n v).blockByte = s.blockByte :=
  setRegIn_blockByte s s.psr.cwp n v
@[simp] theorem setReg_blockWord (s : State) (n : RegNum) (v : Word) :
    (setReg s n v).blockWord = s.blockWord :=
  setRegIn_blockWord s s.psr.cwp n v
@[simp] theorem setReg_mem (s : State) (n : RegNum) (v : Word) : (setReg s n v).mem = s.mem :=
  setRegIn_mem s s.psr.cwp n v
@[simp] theorem setReg_staleWords (s : State) (n : RegNum) (v : Word) :
    (setReg s n v).staleWords = s.staleWords :=
  setRegIn_staleWords s s.psr.cwp n v
@[simp] theorem setReg_ioTrace (s : State) (n : RegNum) (v : Word) :
    (setReg s n v).ioTrace = s.ioTrace :=
  setRegIn_ioTrace s s.psr.cwp n v
@[simp] theorem setReg_mmu (s : State) (n : RegNum) (v : Word) : (setReg s n v).mmu = s.mmu :=
  setRegIn_mmu s s.psr.cwp n v
@[simp] theorem setReg_instruction (s : State) (n : RegNum) (v : Word) :
    (setReg s n v).instruction = s.instruction :=
  setRegIn_instruction s s.psr.cwp n v
@[simp] theorem setReg_fccWindow (s : State) (n : RegNum) (v : Word) :
    (setReg s n v).fccWindow = s.fccWindow :=
  setRegIn_fccWindow s s.psr.cwp n v
@[simp] theorem setReg_inputs (s : State) (n : RegNum) (v : Word) :
    (setReg s n v).inputs = s.inputs :=
  setRegIn_inputs s s.psr.cwp n v
@[simp] theorem setReg_now (s : State) (n : RegNum) (v : Word) : (setReg s n v).now = s.now :=
  setRegIn_now s s.psr.cwp n v
@[simp] theorem setReg_freeDraws (s : State) (n : RegNum) (v : Word) :
    (setReg s n v).freeDraws = s.freeDraws :=
  setRegIn_freeDraws s s.psr.cwp n v

/-! ### keepStale -/

@[simp] theorem keepStale_cfg (s : State) (va : Word) (pa : Nat) :
    (keepStale s va pa).cfg = s.cfg :=
  by unfold keepStale; split <;> rfl
@[simp] theorem keepStale_mode (s : State) (va : Word) (pa : Nat) :
    (keepStale s va pa).mode = s.mode :=
  by unfold keepStale; split <;> rfl
@[simp] theorem keepStale_pbError (s : State) (va : Word) (pa : Nat) :
    (keepStale s va pa).pbError = s.pbError :=
  by unfold keepStale; split <;> rfl
@[simp] theorem keepStale_pc (s : State) (va : Word) (pa : Nat) : (keepStale s va pa).pc = s.pc :=
  by unfold keepStale; split <;> rfl
@[simp] theorem keepStale_npc (s : State) (va : Word) (pa : Nat) :
    (keepStale s va pa).npc = s.npc :=
  by unfold keepStale; split <;> rfl
@[simp] theorem keepStale_annul (s : State) (va : Word) (pa : Nat) :
    (keepStale s va pa).annul = s.annul :=
  by unfold keepStale; split <;> rfl
@[simp] theorem keepStale_globals (s : State) (va : Word) (pa : Nat) :
    (keepStale s va pa).globals = s.globals :=
  by unfold keepStale; split <;> rfl
@[simp] theorem keepStale_windowed (s : State) (va : Word) (pa : Nat) :
    (keepStale s va pa).windowed = s.windowed :=
  by unfold keepStale; split <;> rfl
@[simp] theorem keepStale_psr (s : State) (va : Word) (pa : Nat) :
    (keepStale s va pa).psr = s.psr :=
  by unfold keepStale; split <;> rfl
@[simp] theorem keepStale_wim (s : State) (va : Word) (pa : Nat) :
    (keepStale s va pa).wim = s.wim :=
  by unfold keepStale; split <;> rfl
@[simp] theorem keepStale_tbr (s : State) (va : Word) (pa : Nat) :
    (keepStale s va pa).tbr = s.tbr :=
  by unfold keepStale; split <;> rfl
@[simp] theorem keepStale_y (s : State) (va : Word) (pa : Nat) : (keepStale s va pa).y = s.y :=
  by unfold keepStale; split <;> rfl
@[simp] theorem keepStale_asr (s : State) (va : Word) (pa : Nat) :
    (keepStale s va pa).asr = s.asr :=
  by unfold keepStale; split <;> rfl
@[simp] theorem keepStale_fregs (s : State) (va : Word) (pa : Nat) :
    (keepStale s va pa).fregs = s.fregs :=
  by unfold keepStale; split <;> rfl
@[simp] theorem keepStale_fsr (s : State) (va : Word) (pa : Nat) :
    (keepStale s va pa).fsr = s.fsr :=
  by unfold keepStale; split <;> rfl
@[simp] theorem keepStale_fpuMode (s : State) (va : Word) (pa : Nat) :
    (keepStale s va pa).fpuMode = s.fpuMode :=
  by unfold keepStale; split <;> rfl
@[simp] theorem keepStale_fpuQueue (s : State) (va : Word) (pa : Nat) :
    (keepStale s va pa).fpuQueue = s.fpuQueue :=
  by unfold keepStale; split <;> rfl
@[simp] theorem keepStale_fq (s : State) (va : Word) (pa : Nat) : (keepStale s va pa).fq = s.fq :=
  by unfold keepStale; split <;> rfl
@[simp] theorem keepStale_cp (s : State) (va : Word) (pa : Nat) : (keepStale s va pa).cp = s.cp :=
  by unfold keepStale; split <;> rfl
@[simp] theorem keepStale_cpPending (s : State) (va : Word) (pa : Nat) :
    (keepStale s va pa).cpPending = s.cpPending :=
  by unfold keepStale; split <;> rfl
@[simp] theorem keepStale_pending (s : State) (va : Word) (pa : Nat) :
    (keepStale s va pa).pending = s.pending :=
  by unfold keepStale; split <;> rfl
@[simp] theorem keepStale_recentWrites (s : State) (va : Word) (pa : Nat) :
    (keepStale s va pa).recentWrites = s.recentWrites :=
  by unfold keepStale; split <;> rfl
@[simp] theorem keepStale_storeBarrierPending (s : State) (va : Word) (pa : Nat) :
    (keepStale s va pa).storeBarrierPending = s.storeBarrierPending :=
  by unfold keepStale; split <;> rfl
@[simp] theorem keepStale_psoMode (s : State) (va : Word) (pa : Nat) :
    (keepStale s va pa).psoMode = s.psoMode :=
  by unfold keepStale; split <;> rfl
@[simp] theorem keepStale_blockByte (s : State) (va : Word) (pa : Nat) :
    (keepStale s va pa).blockByte = s.blockByte :=
  by unfold keepStale; split <;> rfl
@[simp] theorem keepStale_blockWord (s : State) (va : Word) (pa : Nat) :
    (keepStale s va pa).blockWord = s.blockWord :=
  by unfold keepStale; split <;> rfl
@[simp] theorem keepStale_mem (s : State) (va : Word) (pa : Nat) :
    (keepStale s va pa).mem = s.mem :=
  by unfold keepStale; split <;> rfl
@[simp] theorem keepStale_ioTrace (s : State) (va : Word) (pa : Nat) :
    (keepStale s va pa).ioTrace = s.ioTrace :=
  by unfold keepStale; split <;> rfl
@[simp] theorem keepStale_mmu (s : State) (va : Word) (pa : Nat) :
    (keepStale s va pa).mmu = s.mmu :=
  by unfold keepStale; split <;> rfl
@[simp] theorem keepStale_instruction (s : State) (va : Word) (pa : Nat) :
    (keepStale s va pa).instruction = s.instruction :=
  by unfold keepStale; split <;> rfl
@[simp] theorem keepStale_fccWindow (s : State) (va : Word) (pa : Nat) :
    (keepStale s va pa).fccWindow = s.fccWindow :=
  by unfold keepStale; split <;> rfl
@[simp] theorem keepStale_inputs (s : State) (va : Word) (pa : Nat) :
    (keepStale s va pa).inputs = s.inputs :=
  by unfold keepStale; split <;> rfl
@[simp] theorem keepStale_now (s : State) (va : Word) (pa : Nat) :
    (keepStale s va pa).now = s.now :=
  by unfold keepStale; split <;> rfl
@[simp] theorem keepStale_freeDraws (s : State) (va : Word) (pa : Nat) :
    (keepStale s va pa).freeDraws = s.freeDraws :=
  by unfold keepStale; split <;> rfl

/-! ### storeAt -/

@[simp] theorem storeAt_cfg (s : State) (va : Word) (pa : Nat) (v : Word) (size : Size) :
    (storeAt s va pa v size).cfg = s.cfg :=
  keepStale_cfg s va pa
@[simp] theorem storeAt_mode (s : State) (va : Word) (pa : Nat) (v : Word) (size : Size) :
    (storeAt s va pa v size).mode = s.mode :=
  keepStale_mode s va pa
@[simp] theorem storeAt_pbError (s : State) (va : Word) (pa : Nat) (v : Word) (size : Size) :
    (storeAt s va pa v size).pbError = s.pbError :=
  keepStale_pbError s va pa
@[simp] theorem storeAt_pc (s : State) (va : Word) (pa : Nat) (v : Word) (size : Size) :
    (storeAt s va pa v size).pc = s.pc :=
  keepStale_pc s va pa
@[simp] theorem storeAt_npc (s : State) (va : Word) (pa : Nat) (v : Word) (size : Size) :
    (storeAt s va pa v size).npc = s.npc :=
  keepStale_npc s va pa
@[simp] theorem storeAt_annul (s : State) (va : Word) (pa : Nat) (v : Word) (size : Size) :
    (storeAt s va pa v size).annul = s.annul :=
  keepStale_annul s va pa
@[simp] theorem storeAt_globals (s : State) (va : Word) (pa : Nat) (v : Word) (size : Size) :
    (storeAt s va pa v size).globals = s.globals :=
  keepStale_globals s va pa
@[simp] theorem storeAt_windowed (s : State) (va : Word) (pa : Nat) (v : Word) (size : Size) :
    (storeAt s va pa v size).windowed = s.windowed :=
  keepStale_windowed s va pa
@[simp] theorem storeAt_psr (s : State) (va : Word) (pa : Nat) (v : Word) (size : Size) :
    (storeAt s va pa v size).psr = s.psr :=
  keepStale_psr s va pa
@[simp] theorem storeAt_wim (s : State) (va : Word) (pa : Nat) (v : Word) (size : Size) :
    (storeAt s va pa v size).wim = s.wim :=
  keepStale_wim s va pa
@[simp] theorem storeAt_tbr (s : State) (va : Word) (pa : Nat) (v : Word) (size : Size) :
    (storeAt s va pa v size).tbr = s.tbr :=
  keepStale_tbr s va pa
@[simp] theorem storeAt_y (s : State) (va : Word) (pa : Nat) (v : Word) (size : Size) :
    (storeAt s va pa v size).y = s.y :=
  keepStale_y s va pa
@[simp] theorem storeAt_asr (s : State) (va : Word) (pa : Nat) (v : Word) (size : Size) :
    (storeAt s va pa v size).asr = s.asr :=
  keepStale_asr s va pa
@[simp] theorem storeAt_fregs (s : State) (va : Word) (pa : Nat) (v : Word) (size : Size) :
    (storeAt s va pa v size).fregs = s.fregs :=
  keepStale_fregs s va pa
@[simp] theorem storeAt_fsr (s : State) (va : Word) (pa : Nat) (v : Word) (size : Size) :
    (storeAt s va pa v size).fsr = s.fsr :=
  keepStale_fsr s va pa
@[simp] theorem storeAt_fpuMode (s : State) (va : Word) (pa : Nat) (v : Word) (size : Size) :
    (storeAt s va pa v size).fpuMode = s.fpuMode :=
  keepStale_fpuMode s va pa
@[simp] theorem storeAt_fpuQueue (s : State) (va : Word) (pa : Nat) (v : Word) (size : Size) :
    (storeAt s va pa v size).fpuQueue = s.fpuQueue :=
  keepStale_fpuQueue s va pa
@[simp] theorem storeAt_fq (s : State) (va : Word) (pa : Nat) (v : Word) (size : Size) :
    (storeAt s va pa v size).fq = s.fq :=
  keepStale_fq s va pa
@[simp] theorem storeAt_cp (s : State) (va : Word) (pa : Nat) (v : Word) (size : Size) :
    (storeAt s va pa v size).cp = s.cp :=
  keepStale_cp s va pa
@[simp] theorem storeAt_cpPending (s : State) (va : Word) (pa : Nat) (v : Word) (size : Size) :
    (storeAt s va pa v size).cpPending = s.cpPending :=
  keepStale_cpPending s va pa
@[simp] theorem storeAt_pending (s : State) (va : Word) (pa : Nat) (v : Word) (size : Size) :
    (storeAt s va pa v size).pending = s.pending :=
  keepStale_pending s va pa
@[simp] theorem storeAt_recentWrites (s : State) (va : Word) (pa : Nat) (v : Word) (size : Size) :
    (storeAt s va pa v size).recentWrites = s.recentWrites :=
  keepStale_recentWrites s va pa
@[simp] theorem storeAt_storeBarrierPending (s : State) (va : Word) (pa : Nat) (v : Word) (size : Size) :
    (storeAt s va pa v size).storeBarrierPending = s.storeBarrierPending :=
  keepStale_storeBarrierPending s va pa
@[simp] theorem storeAt_psoMode (s : State) (va : Word) (pa : Nat) (v : Word) (size : Size) :
    (storeAt s va pa v size).psoMode = s.psoMode :=
  keepStale_psoMode s va pa
@[simp] theorem storeAt_blockByte (s : State) (va : Word) (pa : Nat) (v : Word) (size : Size) :
    (storeAt s va pa v size).blockByte = s.blockByte :=
  keepStale_blockByte s va pa
@[simp] theorem storeAt_blockWord (s : State) (va : Word) (pa : Nat) (v : Word) (size : Size) :
    (storeAt s va pa v size).blockWord = s.blockWord :=
  keepStale_blockWord s va pa
@[simp] theorem storeAt_ioTrace (s : State) (va : Word) (pa : Nat) (v : Word) (size : Size) :
    (storeAt s va pa v size).ioTrace = s.ioTrace :=
  keepStale_ioTrace s va pa
@[simp] theorem storeAt_mmu (s : State) (va : Word) (pa : Nat) (v : Word) (size : Size) :
    (storeAt s va pa v size).mmu = s.mmu :=
  keepStale_mmu s va pa
@[simp] theorem storeAt_instruction (s : State) (va : Word) (pa : Nat) (v : Word) (size : Size) :
    (storeAt s va pa v size).instruction = s.instruction :=
  keepStale_instruction s va pa
@[simp] theorem storeAt_fccWindow (s : State) (va : Word) (pa : Nat) (v : Word) (size : Size) :
    (storeAt s va pa v size).fccWindow = s.fccWindow :=
  keepStale_fccWindow s va pa
@[simp] theorem storeAt_inputs (s : State) (va : Word) (pa : Nat) (v : Word) (size : Size) :
    (storeAt s va pa v size).inputs = s.inputs :=
  keepStale_inputs s va pa
@[simp] theorem storeAt_now (s : State) (va : Word) (pa : Nat) (v : Word) (size : Size) :
    (storeAt s va pa v size).now = s.now :=
  keepStale_now s va pa
@[simp] theorem storeAt_freeDraws (s : State) (va : Word) (pa : Nat) (v : Word) (size : Size) :
    (storeAt s va pa v size).freeDraws = s.freeDraws :=
  keepStale_freeDraws s va pa

/-! ### ioPerformed -/

@[simp] theorem ioPerformed_cfg (s : State) (w : Bool) (asi : BitVec 8) (a : Nat) (z : Size) (v : Word) :
    (ioPerformed s w asi a z v).cfg = s.cfg :=
  rfl
@[simp] theorem ioPerformed_mode (s : State) (w : Bool) (asi : BitVec 8) (a : Nat) (z : Size) (v : Word) :
    (ioPerformed s w asi a z v).mode = s.mode :=
  rfl
@[simp] theorem ioPerformed_pbError (s : State) (w : Bool) (asi : BitVec 8) (a : Nat) (z : Size) (v : Word) :
    (ioPerformed s w asi a z v).pbError = s.pbError :=
  rfl
@[simp] theorem ioPerformed_pc (s : State) (w : Bool) (asi : BitVec 8) (a : Nat) (z : Size) (v : Word) :
    (ioPerformed s w asi a z v).pc = s.pc :=
  rfl
@[simp] theorem ioPerformed_npc (s : State) (w : Bool) (asi : BitVec 8) (a : Nat) (z : Size) (v : Word) :
    (ioPerformed s w asi a z v).npc = s.npc :=
  rfl
@[simp] theorem ioPerformed_annul (s : State) (w : Bool) (asi : BitVec 8) (a : Nat) (z : Size) (v : Word) :
    (ioPerformed s w asi a z v).annul = s.annul :=
  rfl
@[simp] theorem ioPerformed_globals (s : State) (w : Bool) (asi : BitVec 8) (a : Nat) (z : Size) (v : Word) :
    (ioPerformed s w asi a z v).globals = s.globals :=
  rfl
@[simp] theorem ioPerformed_windowed (s : State) (w : Bool) (asi : BitVec 8) (a : Nat) (z : Size) (v : Word) :
    (ioPerformed s w asi a z v).windowed = s.windowed :=
  rfl
@[simp] theorem ioPerformed_psr (s : State) (w : Bool) (asi : BitVec 8) (a : Nat) (z : Size) (v : Word) :
    (ioPerformed s w asi a z v).psr = s.psr :=
  rfl
@[simp] theorem ioPerformed_wim (s : State) (w : Bool) (asi : BitVec 8) (a : Nat) (z : Size) (v : Word) :
    (ioPerformed s w asi a z v).wim = s.wim :=
  rfl
@[simp] theorem ioPerformed_tbr (s : State) (w : Bool) (asi : BitVec 8) (a : Nat) (z : Size) (v : Word) :
    (ioPerformed s w asi a z v).tbr = s.tbr :=
  rfl
@[simp] theorem ioPerformed_y (s : State) (w : Bool) (asi : BitVec 8) (a : Nat) (z : Size) (v : Word) :
    (ioPerformed s w asi a z v).y = s.y :=
  rfl
@[simp] theorem ioPerformed_asr (s : State) (w : Bool) (asi : BitVec 8) (a : Nat) (z : Size) (v : Word) :
    (ioPerformed s w asi a z v).asr = s.asr :=
  rfl
@[simp] theorem ioPerformed_fregs (s : State) (w : Bool) (asi : BitVec 8) (a : Nat) (z : Size) (v : Word) :
    (ioPerformed s w asi a z v).fregs = s.fregs :=
  rfl
@[simp] theorem ioPerformed_fsr (s : State) (w : Bool) (asi : BitVec 8) (a : Nat) (z : Size) (v : Word) :
    (ioPerformed s w asi a z v).fsr = s.fsr :=
  rfl
@[simp] theorem ioPerformed_fpuMode (s : State) (w : Bool) (asi : BitVec 8) (a : Nat) (z : Size) (v : Word) :
    (ioPerformed s w asi a z v).fpuMode = s.fpuMode :=
  rfl
@[simp] theorem ioPerformed_fpuQueue (s : State) (w : Bool) (asi : BitVec 8) (a : Nat) (z : Size) (v : Word) :
    (ioPerformed s w asi a z v).fpuQueue = s.fpuQueue :=
  rfl
@[simp] theorem ioPerformed_fq (s : State) (w : Bool) (asi : BitVec 8) (a : Nat) (z : Size) (v : Word) :
    (ioPerformed s w asi a z v).fq = s.fq :=
  rfl
@[simp] theorem ioPerformed_cp (s : State) (w : Bool) (asi : BitVec 8) (a : Nat) (z : Size) (v : Word) :
    (ioPerformed s w asi a z v).cp = s.cp :=
  rfl
@[simp] theorem ioPerformed_cpPending (s : State) (w : Bool) (asi : BitVec 8) (a : Nat) (z : Size) (v : Word) :
    (ioPerformed s w asi a z v).cpPending = s.cpPending :=
  rfl
@[simp] theorem ioPerformed_pending (s : State) (w : Bool) (asi : BitVec 8) (a : Nat) (z : Size) (v : Word) :
    (ioPerformed s w asi a z v).pending = s.pending :=
  rfl
@[simp] theorem ioPerformed_recentWrites (s : State) (w : Bool) (asi : BitVec 8) (a : Nat) (z : Size) (v : Word) :
    (ioPerformed s w asi a z v).recentWrites = s.recentWrites :=
  rfl
@[simp] theorem ioPerformed_storeBarrierPending (s : State) (w : Bool) (asi : BitVec 8) (a : Nat) (z : Size) (v : Word) :
    (ioPerformed s w asi a z v).storeBarrierPending = s.storeBarrierPending :=
  rfl
@[simp] theorem ioPerformed_psoMode (s : State) (w : Bool) (asi : BitVec 8) (a : Nat) (z : Size) (v : Word) :
    (ioPerformed s w asi a z v).psoMode = s.psoMode :=
  rfl
@[simp] theorem ioPerformed_blockByte (s : State) (w : Bool) (asi : BitVec 8) (a : Nat) (z : Size) (v : Word) :
    (ioPerformed s w asi a z v).blockByte = s.blockByte :=
  rfl
@[simp] theorem ioPerformed_blockWord (s : State) (w : Bool) (asi : BitVec 8) (a : Nat) (z : Size) (v : Word) :
    (ioPerformed s w asi a z v).blockWord = s.blockWord :=
  rfl
@[simp] theorem ioPerformed_mem (s : State) (w : Bool) (asi : BitVec 8) (a : Nat) (z : Size) (v : Word) :
    (ioPerformed s w asi a z v).mem = s.mem :=
  rfl
@[simp] theorem ioPerformed_staleWords (s : State) (w : Bool) (asi : BitVec 8) (a : Nat) (z : Size) (v : Word) :
    (ioPerformed s w asi a z v).staleWords = s.staleWords :=
  rfl
@[simp] theorem ioPerformed_mmu (s : State) (w : Bool) (asi : BitVec 8) (a : Nat) (z : Size) (v : Word) :
    (ioPerformed s w asi a z v).mmu = s.mmu :=
  rfl
@[simp] theorem ioPerformed_instruction (s : State) (w : Bool) (asi : BitVec 8) (a : Nat) (z : Size) (v : Word) :
    (ioPerformed s w asi a z v).instruction = s.instruction :=
  rfl
@[simp] theorem ioPerformed_fccWindow (s : State) (w : Bool) (asi : BitVec 8) (a : Nat) (z : Size) (v : Word) :
    (ioPerformed s w asi a z v).fccWindow = s.fccWindow :=
  rfl
@[simp] theorem ioPerformed_inputs (s : State) (w : Bool) (asi : BitVec 8) (a : Nat) (z : Size) (v : Word) :
    (ioPerformed s w asi a z v).inputs = s.inputs :=
  rfl
@[simp] theorem ioPerformed_now (s : State) (w : Bool) (asi : BitVec 8) (a : Nat) (z : Size) (v : Word) :
    (ioPerformed s w asi a z v).now = s.now :=
  rfl
@[simp] theorem ioPerformed_freeDraws (s : State) (w : Bool) (asi : BitVec 8) (a : Nat) (z : Size) (v : Word) :
    (ioPerformed s w asi a z v).freeDraws = s.freeDraws :=
  rfl

/-! ### rememberWrite -/

@[simp] theorem rememberWrite_cfg (s : State) (r : StateReg) (v : Word) :
    (rememberWrite s r v).cfg = s.cfg :=
  rfl
@[simp] theorem rememberWrite_mode (s : State) (r : StateReg) (v : Word) :
    (rememberWrite s r v).mode = s.mode :=
  rfl
@[simp] theorem rememberWrite_pbError (s : State) (r : StateReg) (v : Word) :
    (rememberWrite s r v).pbError = s.pbError :=
  rfl
@[simp] theorem rememberWrite_pc (s : State) (r : StateReg) (v : Word) :
    (rememberWrite s r v).pc = s.pc :=
  rfl
@[simp] theorem rememberWrite_npc (s : State) (r : StateReg) (v : Word) :
    (rememberWrite s r v).npc = s.npc :=
  rfl
@[simp] theorem rememberWrite_annul (s : State) (r : StateReg) (v : Word) :
    (rememberWrite s r v).annul = s.annul :=
  rfl
@[simp] theorem rememberWrite_globals (s : State) (r : StateReg) (v : Word) :
    (rememberWrite s r v).globals = s.globals :=
  rfl
@[simp] theorem rememberWrite_windowed (s : State) (r : StateReg) (v : Word) :
    (rememberWrite s r v).windowed = s.windowed :=
  rfl
@[simp] theorem rememberWrite_psr (s : State) (r : StateReg) (v : Word) :
    (rememberWrite s r v).psr = s.psr :=
  rfl
@[simp] theorem rememberWrite_wim (s : State) (r : StateReg) (v : Word) :
    (rememberWrite s r v).wim = s.wim :=
  rfl
@[simp] theorem rememberWrite_tbr (s : State) (r : StateReg) (v : Word) :
    (rememberWrite s r v).tbr = s.tbr :=
  rfl
@[simp] theorem rememberWrite_y (s : State) (r : StateReg) (v : Word) :
    (rememberWrite s r v).y = s.y :=
  rfl
@[simp] theorem rememberWrite_asr (s : State) (r : StateReg) (v : Word) :
    (rememberWrite s r v).asr = s.asr :=
  rfl
@[simp] theorem rememberWrite_fregs (s : State) (r : StateReg) (v : Word) :
    (rememberWrite s r v).fregs = s.fregs :=
  rfl
@[simp] theorem rememberWrite_fsr (s : State) (r : StateReg) (v : Word) :
    (rememberWrite s r v).fsr = s.fsr :=
  rfl
@[simp] theorem rememberWrite_fpuMode (s : State) (r : StateReg) (v : Word) :
    (rememberWrite s r v).fpuMode = s.fpuMode :=
  rfl
@[simp] theorem rememberWrite_fpuQueue (s : State) (r : StateReg) (v : Word) :
    (rememberWrite s r v).fpuQueue = s.fpuQueue :=
  rfl
@[simp] theorem rememberWrite_fq (s : State) (r : StateReg) (v : Word) :
    (rememberWrite s r v).fq = s.fq :=
  rfl
@[simp] theorem rememberWrite_cp (s : State) (r : StateReg) (v : Word) :
    (rememberWrite s r v).cp = s.cp :=
  rfl
@[simp] theorem rememberWrite_cpPending (s : State) (r : StateReg) (v : Word) :
    (rememberWrite s r v).cpPending = s.cpPending :=
  rfl
@[simp] theorem rememberWrite_pending (s : State) (r : StateReg) (v : Word) :
    (rememberWrite s r v).pending = s.pending :=
  rfl
@[simp] theorem rememberWrite_storeBarrierPending (s : State) (r : StateReg) (v : Word) :
    (rememberWrite s r v).storeBarrierPending = s.storeBarrierPending :=
  rfl
@[simp] theorem rememberWrite_psoMode (s : State) (r : StateReg) (v : Word) :
    (rememberWrite s r v).psoMode = s.psoMode :=
  rfl
@[simp] theorem rememberWrite_blockByte (s : State) (r : StateReg) (v : Word) :
    (rememberWrite s r v).blockByte = s.blockByte :=
  rfl
@[simp] theorem rememberWrite_blockWord (s : State) (r : StateReg) (v : Word) :
    (rememberWrite s r v).blockWord = s.blockWord :=
  rfl
@[simp] theorem rememberWrite_mem (s : State) (r : StateReg) (v : Word) :
    (rememberWrite s r v).mem = s.mem :=
  rfl
@[simp] theorem rememberWrite_staleWords (s : State) (r : StateReg) (v : Word) :
    (rememberWrite s r v).staleWords = s.staleWords :=
  rfl
@[simp] theorem rememberWrite_ioTrace (s : State) (r : StateReg) (v : Word) :
    (rememberWrite s r v).ioTrace = s.ioTrace :=
  rfl
@[simp] theorem rememberWrite_mmu (s : State) (r : StateReg) (v : Word) :
    (rememberWrite s r v).mmu = s.mmu :=
  rfl
@[simp] theorem rememberWrite_instruction (s : State) (r : StateReg) (v : Word) :
    (rememberWrite s r v).instruction = s.instruction :=
  rfl
@[simp] theorem rememberWrite_fccWindow (s : State) (r : StateReg) (v : Word) :
    (rememberWrite s r v).fccWindow = s.fccWindow :=
  rfl
@[simp] theorem rememberWrite_inputs (s : State) (r : StateReg) (v : Word) :
    (rememberWrite s r v).inputs = s.inputs :=
  rfl
@[simp] theorem rememberWrite_now (s : State) (r : StateReg) (v : Word) :
    (rememberWrite s r v).now = s.now :=
  rfl
@[simp] theorem rememberWrite_freeDraws (s : State) (r : StateReg) (v : Word) :
    (rememberWrite s r v).freeDraws = s.freeDraws :=
  rfl

/-! ### recordFault -/

@[simp] theorem recordFault_cfg (s : State) (k : FaultClass) (l : BitVec 2) (a f : BitVec 3) (b : Bool) (va : Word) :
    (recordFault s k l a f b va).cfg = s.cfg :=
  by unfold recordFault; split <;> rfl
@[simp] theorem recordFault_mode (s : State) (k : FaultClass) (l : BitVec 2) (a f : BitVec 3) (b : Bool) (va : Word) :
    (recordFault s k l a f b va).mode = s.mode :=
  by unfold recordFault; split <;> rfl
@[simp] theorem recordFault_pbError (s : State) (k : FaultClass) (l : BitVec 2) (a f : BitVec 3) (b : Bool) (va : Word) :
    (recordFault s k l a f b va).pbError = s.pbError :=
  by unfold recordFault; split <;> rfl
@[simp] theorem recordFault_pc (s : State) (k : FaultClass) (l : BitVec 2) (a f : BitVec 3) (b : Bool) (va : Word) :
    (recordFault s k l a f b va).pc = s.pc :=
  by unfold recordFault; split <;> rfl
@[simp] theorem recordFault_npc (s : State) (k : FaultClass) (l : BitVec 2) (a f : BitVec 3) (b : Bool) (va : Word) :
    (recordFault s k l a f b va).npc = s.npc :=
  by unfold recordFault; split <;> rfl
@[simp] theorem recordFault_annul (s : State) (k : FaultClass) (l : BitVec 2) (a f : BitVec 3) (b : Bool) (va : Word) :
    (recordFault s k l a f b va).annul = s.annul :=
  by unfold recordFault; split <;> rfl
@[simp] theorem recordFault_globals (s : State) (k : FaultClass) (l : BitVec 2) (a f : BitVec 3) (b : Bool) (va : Word) :
    (recordFault s k l a f b va).globals = s.globals :=
  by unfold recordFault; split <;> rfl
@[simp] theorem recordFault_windowed (s : State) (k : FaultClass) (l : BitVec 2) (a f : BitVec 3) (b : Bool) (va : Word) :
    (recordFault s k l a f b va).windowed = s.windowed :=
  by unfold recordFault; split <;> rfl
@[simp] theorem recordFault_psr (s : State) (k : FaultClass) (l : BitVec 2) (a f : BitVec 3) (b : Bool) (va : Word) :
    (recordFault s k l a f b va).psr = s.psr :=
  by unfold recordFault; split <;> rfl
@[simp] theorem recordFault_wim (s : State) (k : FaultClass) (l : BitVec 2) (a f : BitVec 3) (b : Bool) (va : Word) :
    (recordFault s k l a f b va).wim = s.wim :=
  by unfold recordFault; split <;> rfl
@[simp] theorem recordFault_tbr (s : State) (k : FaultClass) (l : BitVec 2) (a f : BitVec 3) (b : Bool) (va : Word) :
    (recordFault s k l a f b va).tbr = s.tbr :=
  by unfold recordFault; split <;> rfl
@[simp] theorem recordFault_y (s : State) (k : FaultClass) (l : BitVec 2) (a f : BitVec 3) (b : Bool) (va : Word) :
    (recordFault s k l a f b va).y = s.y :=
  by unfold recordFault; split <;> rfl
@[simp] theorem recordFault_asr (s : State) (k : FaultClass) (l : BitVec 2) (a f : BitVec 3) (b : Bool) (va : Word) :
    (recordFault s k l a f b va).asr = s.asr :=
  by unfold recordFault; split <;> rfl
@[simp] theorem recordFault_fregs (s : State) (k : FaultClass) (l : BitVec 2) (a f : BitVec 3) (b : Bool) (va : Word) :
    (recordFault s k l a f b va).fregs = s.fregs :=
  by unfold recordFault; split <;> rfl
@[simp] theorem recordFault_fsr (s : State) (k : FaultClass) (l : BitVec 2) (a f : BitVec 3) (b : Bool) (va : Word) :
    (recordFault s k l a f b va).fsr = s.fsr :=
  by unfold recordFault; split <;> rfl
@[simp] theorem recordFault_fpuMode (s : State) (k : FaultClass) (l : BitVec 2) (a f : BitVec 3) (b : Bool) (va : Word) :
    (recordFault s k l a f b va).fpuMode = s.fpuMode :=
  by unfold recordFault; split <;> rfl
@[simp] theorem recordFault_fpuQueue (s : State) (k : FaultClass) (l : BitVec 2) (a f : BitVec 3) (b : Bool) (va : Word) :
    (recordFault s k l a f b va).fpuQueue = s.fpuQueue :=
  by unfold recordFault; split <;> rfl
@[simp] theorem recordFault_fq (s : State) (k : FaultClass) (l : BitVec 2) (a f : BitVec 3) (b : Bool) (va : Word) :
    (recordFault s k l a f b va).fq = s.fq :=
  by unfold recordFault; split <;> rfl
@[simp] theorem recordFault_cp (s : State) (k : FaultClass) (l : BitVec 2) (a f : BitVec 3) (b : Bool) (va : Word) :
    (recordFault s k l a f b va).cp = s.cp :=
  by unfold recordFault; split <;> rfl
@[simp] theorem recordFault_cpPending (s : State) (k : FaultClass) (l : BitVec 2) (a f : BitVec 3) (b : Bool) (va : Word) :
    (recordFault s k l a f b va).cpPending = s.cpPending :=
  by unfold recordFault; split <;> rfl
@[simp] theorem recordFault_pending (s : State) (k : FaultClass) (l : BitVec 2) (a f : BitVec 3) (b : Bool) (va : Word) :
    (recordFault s k l a f b va).pending = s.pending :=
  by unfold recordFault; split <;> rfl
@[simp] theorem recordFault_recentWrites (s : State) (k : FaultClass) (l : BitVec 2) (a f : BitVec 3) (b : Bool) (va : Word) :
    (recordFault s k l a f b va).recentWrites = s.recentWrites :=
  by unfold recordFault; split <;> rfl
@[simp] theorem recordFault_storeBarrierPending (s : State) (k : FaultClass) (l : BitVec 2) (a f : BitVec 3) (b : Bool) (va : Word) :
    (recordFault s k l a f b va).storeBarrierPending = s.storeBarrierPending :=
  by unfold recordFault; split <;> rfl
@[simp] theorem recordFault_psoMode (s : State) (k : FaultClass) (l : BitVec 2) (a f : BitVec 3) (b : Bool) (va : Word) :
    (recordFault s k l a f b va).psoMode = s.psoMode :=
  by unfold recordFault; split <;> rfl
@[simp] theorem recordFault_blockByte (s : State) (k : FaultClass) (l : BitVec 2) (a f : BitVec 3) (b : Bool) (va : Word) :
    (recordFault s k l a f b va).blockByte = s.blockByte :=
  by unfold recordFault; split <;> rfl
@[simp] theorem recordFault_blockWord (s : State) (k : FaultClass) (l : BitVec 2) (a f : BitVec 3) (b : Bool) (va : Word) :
    (recordFault s k l a f b va).blockWord = s.blockWord :=
  by unfold recordFault; split <;> rfl
@[simp] theorem recordFault_mem (s : State) (k : FaultClass) (l : BitVec 2) (a f : BitVec 3) (b : Bool) (va : Word) :
    (recordFault s k l a f b va).mem = s.mem :=
  by unfold recordFault; split <;> rfl
@[simp] theorem recordFault_staleWords (s : State) (k : FaultClass) (l : BitVec 2) (a f : BitVec 3) (b : Bool) (va : Word) :
    (recordFault s k l a f b va).staleWords = s.staleWords :=
  by unfold recordFault; split <;> rfl
@[simp] theorem recordFault_ioTrace (s : State) (k : FaultClass) (l : BitVec 2) (a f : BitVec 3) (b : Bool) (va : Word) :
    (recordFault s k l a f b va).ioTrace = s.ioTrace :=
  by unfold recordFault; split <;> rfl
@[simp] theorem recordFault_instruction (s : State) (k : FaultClass) (l : BitVec 2) (a f : BitVec 3) (b : Bool) (va : Word) :
    (recordFault s k l a f b va).instruction = s.instruction :=
  by unfold recordFault; split <;> rfl
@[simp] theorem recordFault_fccWindow (s : State) (k : FaultClass) (l : BitVec 2) (a f : BitVec 3) (b : Bool) (va : Word) :
    (recordFault s k l a f b va).fccWindow = s.fccWindow :=
  by unfold recordFault; split <;> rfl
@[simp] theorem recordFault_inputs (s : State) (k : FaultClass) (l : BitVec 2) (a f : BitVec 3) (b : Bool) (va : Word) :
    (recordFault s k l a f b va).inputs = s.inputs :=
  by unfold recordFault; split <;> rfl
@[simp] theorem recordFault_now (s : State) (k : FaultClass) (l : BitVec 2) (a f : BitVec 3) (b : Bool) (va : Word) :
    (recordFault s k l a f b va).now = s.now :=
  by unfold recordFault; split <;> rfl

/-! ### markAccessed -/

@[simp] theorem markAccessed_cfg (s : State) (x : PdcEntry) (store : Bool) :
    (markAccessed s x store).cfg = s.cfg :=
  by unfold markAccessed; simp only []; split <;> rfl
@[simp] theorem markAccessed_mode (s : State) (x : PdcEntry) (store : Bool) :
    (markAccessed s x store).mode = s.mode :=
  by unfold markAccessed; simp only []; split <;> rfl
@[simp] theorem markAccessed_pbError (s : State) (x : PdcEntry) (store : Bool) :
    (markAccessed s x store).pbError = s.pbError :=
  by unfold markAccessed; simp only []; split <;> rfl
@[simp] theorem markAccessed_pc (s : State) (x : PdcEntry) (store : Bool) :
    (markAccessed s x store).pc = s.pc :=
  by unfold markAccessed; simp only []; split <;> rfl
@[simp] theorem markAccessed_npc (s : State) (x : PdcEntry) (store : Bool) :
    (markAccessed s x store).npc = s.npc :=
  by unfold markAccessed; simp only []; split <;> rfl
@[simp] theorem markAccessed_annul (s : State) (x : PdcEntry) (store : Bool) :
    (markAccessed s x store).annul = s.annul :=
  by unfold markAccessed; simp only []; split <;> rfl
@[simp] theorem markAccessed_globals (s : State) (x : PdcEntry) (store : Bool) :
    (markAccessed s x store).globals = s.globals :=
  by unfold markAccessed; simp only []; split <;> rfl
@[simp] theorem markAccessed_windowed (s : State) (x : PdcEntry) (store : Bool) :
    (markAccessed s x store).windowed = s.windowed :=
  by unfold markAccessed; simp only []; split <;> rfl
@[simp] theorem markAccessed_psr (s : State) (x : PdcEntry) (store : Bool) :
    (markAccessed s x store).psr = s.psr :=
  by unfold markAccessed; simp only []; split <;> rfl
@[simp] theorem markAccessed_wim (s : State) (x : PdcEntry) (store : Bool) :
    (markAccessed s x store).wim = s.wim :=
  by unfold markAccessed; simp only []; split <;> rfl
@[simp] theorem markAccessed_tbr (s : State) (x : PdcEntry) (store : Bool) :
    (markAccessed s x store).tbr = s.tbr :=
  by unfold markAccessed; simp only []; split <;> rfl
@[simp] theorem markAccessed_y (s : State) (x : PdcEntry) (store : Bool) :
    (markAccessed s x store).y = s.y :=
  by unfold markAccessed; simp only []; split <;> rfl
@[simp] theorem markAccessed_asr (s : State) (x : PdcEntry) (store : Bool) :
    (markAccessed s x store).asr = s.asr :=
  by unfold markAccessed; simp only []; split <;> rfl
@[simp] theorem markAccessed_fregs (s : State) (x : PdcEntry) (store : Bool) :
    (markAccessed s x store).fregs = s.fregs :=
  by unfold markAccessed; simp only []; split <;> rfl
@[simp] theorem markAccessed_fsr (s : State) (x : PdcEntry) (store : Bool) :
    (markAccessed s x store).fsr = s.fsr :=
  by unfold markAccessed; simp only []; split <;> rfl
@[simp] theorem markAccessed_fpuMode (s : State) (x : PdcEntry) (store : Bool) :
    (markAccessed s x store).fpuMode = s.fpuMode :=
  by unfold markAccessed; simp only []; split <;> rfl
@[simp] theorem markAccessed_fpuQueue (s : State) (x : PdcEntry) (store : Bool) :
    (markAccessed s x store).fpuQueue = s.fpuQueue :=
  by unfold markAccessed; simp only []; split <;> rfl
@[simp] theorem markAccessed_fq (s : State) (x : PdcEntry) (store : Bool) :
    (markAccessed s x store).fq = s.fq :=
  by unfold markAccessed; simp only []; split <;> rfl
@[simp] theorem markAccessed_cp (s : State) (x : PdcEntry) (store : Bool) :
    (markAccessed s x store).cp = s.cp :=
  by unfold markAccessed; simp only []; split <;> rfl
@[simp] theorem markAccessed_cpPending (s : State) (x : PdcEntry) (store : Bool) :
    (markAccessed s x store).cpPending = s.cpPending :=
  by unfold markAccessed; simp only []; split <;> rfl
@[simp] theorem markAccessed_pending (s : State) (x : PdcEntry) (store : Bool) :
    (markAccessed s x store).pending = s.pending :=
  by unfold markAccessed; simp only []; split <;> rfl
@[simp] theorem markAccessed_recentWrites (s : State) (x : PdcEntry) (store : Bool) :
    (markAccessed s x store).recentWrites = s.recentWrites :=
  by unfold markAccessed; simp only []; split <;> rfl
@[simp] theorem markAccessed_storeBarrierPending (s : State) (x : PdcEntry) (store : Bool) :
    (markAccessed s x store).storeBarrierPending = s.storeBarrierPending :=
  by unfold markAccessed; simp only []; split <;> rfl
@[simp] theorem markAccessed_psoMode (s : State) (x : PdcEntry) (store : Bool) :
    (markAccessed s x store).psoMode = s.psoMode :=
  by unfold markAccessed; simp only []; split <;> rfl
@[simp] theorem markAccessed_blockByte (s : State) (x : PdcEntry) (store : Bool) :
    (markAccessed s x store).blockByte = s.blockByte :=
  by unfold markAccessed; simp only []; split <;> rfl
@[simp] theorem markAccessed_blockWord (s : State) (x : PdcEntry) (store : Bool) :
    (markAccessed s x store).blockWord = s.blockWord :=
  by unfold markAccessed; simp only []; split <;> rfl
@[simp] theorem markAccessed_staleWords (s : State) (x : PdcEntry) (store : Bool) :
    (markAccessed s x store).staleWords = s.staleWords :=
  by unfold markAccessed; simp only []; split <;> rfl
@[simp] theorem markAccessed_ioTrace (s : State) (x : PdcEntry) (store : Bool) :
    (markAccessed s x store).ioTrace = s.ioTrace :=
  by unfold markAccessed; simp only []; split <;> rfl
@[simp] theorem markAccessed_instruction (s : State) (x : PdcEntry) (store : Bool) :
    (markAccessed s x store).instruction = s.instruction :=
  by unfold markAccessed; simp only []; split <;> rfl
@[simp] theorem markAccessed_fccWindow (s : State) (x : PdcEntry) (store : Bool) :
    (markAccessed s x store).fccWindow = s.fccWindow :=
  by unfold markAccessed; simp only []; split <;> rfl
@[simp] theorem markAccessed_inputs (s : State) (x : PdcEntry) (store : Bool) :
    (markAccessed s x store).inputs = s.inputs :=
  by unfold markAccessed; simp only []; split <;> rfl
@[simp] theorem markAccessed_now (s : State) (x : PdcEntry) (store : Bool) :
    (markAccessed s x store).now = s.now :=
  by unfold markAccessed; simp only []; split <;> rfl
@[simp] theorem markAccessed_freeDraws (s : State) (x : PdcEntry) (store : Bool) :
    (markAccessed s x store).freeDraws = s.freeDraws :=
  by unfold markAccessed; simp only []; split <;> rfl

/-! ### What the updates write -/

@[simp] theorem advance_pc (s : State) : (advance s).pc = s.npc := rfl
@[simp] theorem advance_npc (s : State) : (advance s).npc = s.npc + 4#32 := rfl
@[simp] theorem storeAt_mem (s : State) (va : Word) (pa : Nat) (v : Word) (size : Size) :
    (storeAt s va pa v size).mem = s.mem.write pa v size := rfl
@[simp] theorem clearBarrier_storeBarrierPending (s : State) :
    (clearBarrier s).storeBarrierPending = false := rfl
@[simp] theorem ioPerformed_ioTrace (s : State) (w : Bool) (asi : BitVec 8) (a : Nat) (z : Size)
    (v : Word) : (ioPerformed s w asi a z v).ioTrace = s.ioTrace ++ [⟨w, asi, a, z, v⟩] := rfl
@[simp] theorem reg_advance (s : State) (n : RegNum) : reg (advance s) n = reg s n := rfl
@[simp] theorem freg_advance (s : State) (n : RegNum) : freg (advance s) n = freg s n := rfl

end Sys2Proof.Machine
end

