-- ==== Sys2Proof/Laws/Access.lean ====
section
/-! SUPPORT. What one memory access can do: which fields of the state it can change, that it keeps the
memory's canonical form, and what it is on untranslated real memory. -/

namespace Sys2Proof.Machine

/-- `t` differs from `s` at most in memory, the MMU, PSO_mode, the free-value counter, the instruction buffer,
the record of I/O accesses and store_barrier_pending, and its memory has the canonical form if that of `s`
has. -/
structure AccessFrame (s t : State) : Prop where
  rest : t =
    { s with
      mem := t.mem, mmu := t.mmu, psoMode := t.psoMode, freeDraws := t.freeDraws, staleWords := t.staleWords,
      ioTrace := t.ioTrace, storeBarrierPending := t.storeBarrierPending }
  wf : s.mem.wf → t.mem.wf

theorem AccessFrame.refl (s : State) : AccessFrame s s := ⟨rfl, id⟩

theorem AccessFrame.trans {s t u : State} (h : AccessFrame s t) (k : AccessFrame t u) :
    AccessFrame s u := by
  refine ⟨?_, fun w => k.wf (h.wf w)⟩
  have h1 := h.rest
  have k1 := k.rest
  rw [k1]
  rw [h1]

theorem pdcEvict_frame (s : State) : AccessFrame s (pdcEvict s) := ⟨rfl, id⟩

theorem pdcInsert_frame (s : State) (xs : List PdcEntry) : AccessFrame s (pdcInsert s xs) := ⟨rfl, id⟩

theorem clearBarrier_frame (s : State) : AccessFrame s (clearBarrier s) := ⟨rfl, id⟩

theorem mmuFlush_frame (s : State) (va : Word) : AccessFrame s (mmuFlush s va) := ⟨rfl, id⟩

theorem draw_frame (s : State) : AccessFrame s { s with freeDraws := s.freeDraws + 1 } := ⟨rfl, id⟩

theorem recordFault_frame (s : State) (k : FaultClass) (l : BitVec 2) (a f : BitVec 3) (b : Bool)
    (va : Word) : AccessFrame s (recordFault s k l a f b va) := by
  unfold recordFault
  split
  · exact ⟨rfl, id⟩
  · exact .refl s

theorem errorRecorded_frame (s : State) (asi : BitVec 8) (ft : BitVec 3) (va : Word) (store : Bool) :
    AccessFrame s (errorRecorded s asi ft va store) := recordFault_frame ..

theorem busError_frame (s : State) (asi : BitVec 8) (va : Word) (store : Bool) :
    AccessFrame s (busError s asi va store) := errorRecorded_frame ..

theorem ioPerformed_frame (s : State) (w : Bool) (asi : BitVec 8) (a : Nat) (z : Size) (v : Word) :
    AccessFrame s (ioPerformed s w asi a z v) := ⟨rfl, id⟩

theorem markAccessed_frame (s : State) (x : PdcEntry) (store : Bool) :
    AccessFrame s (markAccessed s x store) := by
  unfold markAccessed
  simp only []
  split
  · exact .refl s
  · exact ⟨rfl, fun h => Memory.write32_wf _ _ _ h⟩

theorem keepStale_frame (s : State) (va : Word) (pa : Nat) : AccessFrame s (keepStale s va pa) := by
  unfold keepStale
  split
  · exact ⟨rfl, id⟩
  · exact .refl s

theorem storeAt_frame (s : State) (va : Word) (pa : Nat) (v : Word) (size : Size) :
    AccessFrame s (storeAt s va pa v size) := by
  have h := (keepStale_frame s va pa).rest
  refine ⟨?_, fun w => Memory.write_wf _ _ _ _ w⟩
  unfold storeAt
  rw [h]

/-- What a translation leaves. -/
def Translation.state : Translation → State
  | .ok _ _ t => t
  | .fault _ _ t => t

theorem checkedAccess_frame (s : State) (x : PdcEntry) (asi : BitVec 8) (va : Word) (store : Bool) :
    AccessFrame s (checkedAccess s x asi va store).state := by
  unfold checkedAccess
  simp only []
  split
  · exact markAccessed_frame ..
  · exact recordFault_frame ..

theorem translateCached_frame (s : State) (k : AccessKind) (asi : BitVec 8) (va : Word) (store : Bool) :
    AccessFrame s (translateCached s k asi va store).state := by
  unfold translateCached
  split
  · exact checkedAccess_frame ..
  · split
    · exact (pdcInsert_frame ..).trans (checkedAccess_frame ..)
    · exact recordFault_frame ..

/-- A translation changes at most what an access may. -/
theorem translate_frame (s : State) (k : AccessKind) (asi : BitVec 8) (va : Word) (store : Bool) :
    AccessFrame s (translate s k asi va store).state :=
  (pdcEvict_frame s).trans (translateCached_frame ..)

/-- What an access leaves is framed. -/
def MemRes.Framed {α : Type} (s : State) : MemRes α → Prop
  | .ok _ t => AccessFrame s t
  | .fault _ t => AccessFrame s t

theorem MemRes.Framed.from {α : Type} {s t : State} {m : MemRes α} (h : AccessFrame s t)
    (k : m.Framed t) : m.Framed s := by
  cases m with
  | ok v u => exact h.trans k
  | fault x u => exact h.trans k

theorem MemRes.Framed.andThen {α β : Type} {s : State} {m : MemRes α} {k : α → State → MemRes β}
    (h : m.Framed s) (hk : ∀ v t, (k v t).Framed t) : (m.andThen k).Framed s := by
  cases m with
  | ok v t => exact .from h (hk v t)
  | fault x t => exact h

/-! ### Routes -/

theorem mmuFault_framed (s : State) (asi : BitVec 8) (t : Trap) (pa : Option (BitVec 36)) :
    (mmuFault s asi t pa).Framed s := by
  unfold mmuFault
  split
  · exact .refl s
  · exact .refl s

theorem translatedRoute_framed (s : State) (k : AccessKind) (asi : BitVec 8) (va : Word) (store : Bool) :
    (translatedRoute s k asi va store).Framed s := by
  have hf : AccessFrame s
      (if k = .second then translateCached s k asi va store else translate s k asi va store).state := by
    split
    · exact translateCached_frame ..
    · exact translate_frame ..
  unfold translatedRoute
  split
  · exact .from (errorRecorded_frame ..) (mmuFault_framed ..)
  · split
    · next h =>
      rw [h] at hf
      exact .from hf (mmuFault_framed ..)
    · next h =>
      rw [h] at hf
      exact hf

/-- Everything finding out where an access goes can do to the state. -/
theorem route_framed (s : State) (k : AccessKind) (asi : BitVec 8) (va : Word) (store : Bool) :
    (route s k asi va store).Framed s := by
  unfold route
  split
  · exact .refl s
  · simp only []
    split
    · split
      · exact translatedRoute_framed ..
      · exact .refl s
    all_goals exact .refl s

/-! ### Reads -/

theorem ioRead_framed (s : State) (k : AccessKind) (asi : BitVec 8) (a : Nat) (z : Size) :
    (ioRead s k asi a z).Framed s := ⟨rfl, id⟩

theorem suppressedRead_framed (s : State) (z : Size) : (suppressedRead s z).Framed s := draw_frame s

theorem readError_framed (s : State) (k : AccessKind) (asi : BitVec 8) (va : Word) (z : Size)
    (mmu : Bool) : (readError s k asi va z mmu).Framed s := by
  unfold readError
  split
  · simp only []
    split
    · exact .from (busError_frame ..) (suppressedRead_framed ..)
    · exact busError_frame ..
  · exact .refl s

theorem physicalRead_framed (s : State) (k : AccessKind) (asi : BitVec 8) (va : Word) (pa : Nat)
    (size : Size) (mmu : Bool) : (physicalRead s k asi va pa size mmu).Framed s := by
  unfold physicalRead
  split
  · exact readError_framed ..
  · split
    · exact .refl s
    · split
      · exact .refl s
      · exact .refl s
      · exact ioRead_framed ..
      · exact .refl s

theorem probeCached_frame (s : State) (k : AccessKind) (va : Word) : AccessFrame s (probeCached s k va).2 := by
  unfold probeCached
  simp only []
  split
  · exact draw_frame _
  · split
    · split
      · exact .refl s
      · split
        · exact pdcInsert_frame ..
        · split
          · exact recordFault_frame ..
          · exact .refl s
    · split
      · exact .refl s
      · split
        · exact .refl s
        · exact recordFault_frame ..

theorem mmuProbe_frame (s : State) (k : AccessKind) (va : Word) : AccessFrame s (mmuProbe s k va).2 :=
  (pdcEvict_frame s).trans (probeCached_frame ..)

theorem mmuRegisterRead_frame {s : State} {va : Word} {r : Word × State}
    (h : mmuRegisterRead s va = some r) : AccessFrame s r.2 := by
  unfold mmuRegisterRead at h
  split at h <;> simp only [Option.some.injEq, reduceCtorEq] at h
  all_goals subst h
  all_goals exact ⟨rfl, id⟩

theorem mmuRegisterWrite_frame {s t : State} {va v : Word} (h : mmuRegisterWrite s va v = some t) :
    AccessFrame s t := by
  unfold mmuRegisterWrite at h
  split at h <;> simp only [Option.some.injEq, reduceCtorEq] at h
  all_goals subst h
  all_goals exact ⟨rfl, id⟩

theorem deviceRead_framed (s : State) (k : AccessKind) (asi : BitVec 8) (va : Word) (z : Size) :
    (deviceRead s k asi va z).Framed s := by
  unfold deviceRead
  split
  · exact .refl s
  · exact ioRead_framed ..

/-- Everything the read of a routed access can do to the state. -/
theorem readAt_framed (s : State) (k : AccessKind) (r : Route) (va : Word) (size : Size) :
    (readAt s k r va size).Framed s := by
  unfold readAt
  split
  · exact physicalRead_framed ..
  · exact suppressedRead_framed ..
  · exact deviceRead_framed ..
  · split
    · exact mmuProbe_frame ..
    · exact .refl s
  · split
    · split
      · next h => exact mmuRegisterRead_frame h
      · exact .refl s
    · exact .refl s
  · exact .refl s

/-- Everything a read can do to the state. -/
theorem memRead_framed (s : State) (k : AccessKind) (asi : BitVec 8) (va : Word) (size : Size) :
    (memRead s k asi va size).Framed s :=
  (route_framed ..).andThen fun _ _ => readAt_framed ..

/-! ### Writes -/

theorem ioWrite_framed (s : State) (asi : BitVec 8) (a : Nat) (z : Size) (v : Word) :
    (ioWrite s asi a z v).Framed s := ioPerformed_frame ..

theorem suppressedWrite_framed (s : State) (asi : BitVec 8) (va : Word) (pa : Option Nat)
    (v : Word) (size : Size) : (suppressedWrite s asi va pa v size).Framed s := by
  unfold suppressedWrite
  simp only []
  split
  · exact draw_frame s
  · split
    · exact (draw_frame s).trans (storeAt_frame ..)
    · exact draw_frame s

theorem writeError_framed (s : State) (k : AccessKind) (asi : BitVec 8) (va v : Word) (size : Size)
    (mmu : Bool) : (writeError s k asi va v size mmu).Framed s := by
  unfold writeError
  split
  · simp only []
    split
    · exact .from (busError_frame ..) (suppressedWrite_framed ..)
    · exact busError_frame ..
  · exact .refl s

theorem physicalWrite_framed (s : State) (k : AccessKind) (asi : BitVec 8) (va : Word) (pa : Nat)
    (v : Word) (size : Size) (mmu : Bool) : (physicalWrite s k asi va pa v size mmu).Framed s := by
  unfold physicalWrite
  split
  · exact writeError_framed ..
  · split
    · exact .refl s
    · split
      · exact storeAt_frame ..
      · split
        · exact .refl s
        · exact .refl s
      · exact ioWrite_framed ..
      · exact .refl s

theorem deviceWrite_framed (s : State) (k : AccessKind) (asi : BitVec 8) (va v : Word) (z : Size) :
    (deviceWrite s k asi va v z).Framed s := by
  unfold deviceWrite
  split
  · exact .refl s
  · exact ioWrite_framed ..

/-- Everything the write of a routed access can do to the state. -/
theorem writeAt_framed (s : State) (k : AccessKind) (r : Route) (va v : Word) (size : Size) :
    (writeAt s k r va v size).Framed s := by
  unfold writeAt
  split
  · exact physicalWrite_framed ..
  · exact suppressedWrite_framed ..
  · exact deviceWrite_framed ..
  · split
    · exact mmuFlush_frame ..
    · exact .refl s
  · split
    · split
      · next h => exact mmuRegisterWrite_frame h
      · exact .refl s
    · exact .refl s
  · split
    · exact .refl s
    · exact .refl s

theorem writeRoute_framed (s : State) (k : AccessKind) (asi : BitVec 8) (va : Word) :
    (writeRoute s k asi va).Framed s := .from (clearBarrier_frame s) (route_framed ..)

/-- Everything a write can do to the state. -/
theorem memWrite_framed (s : State) (k : AccessKind) (asi : BitVec 8) (va v : Word) (size : Size) :
    (memWrite s k asi va v size).Framed s :=
  (writeRoute_framed ..).andThen fun _ _ => writeAt_framed ..

/-! ### Fetches -/

theorem fetchedWord_frame (s : State) (pa : Nat) (w : Word) : AccessFrame s (fetchedWord s pa w).2 := by
  unfold fetchedWord
  split
  · exact draw_frame s
  · exact .refl s

/-- Everything a fetch can do to the state. -/
theorem fetch_framed (s : State) : (fetch s).Framed s :=
  (route_framed ..).andThen fun r _ => (readAt_framed ..).andThen fun w t => by
    cases r with
    | memory asi pa mmu =>
      dsimp only
      split
      · exact .refl t
      · exact fetchedWord_frame t pa w
    | _ => exact .refl t

/-! ### Untranslated real memory -/

/-- The environment presents nothing on this access. -/
def AccessQuiet (s : State) (k : AccessKind) : Prop :=
  missPresented s k = none ∧ errorPresented s k = false ∧ exceptionPresented s k = false

/-- With no machine check nothing is presented on any access. -/
theorem accessQuiet_of_none {s : State} (h : s.now.machineCheck = none) (k : AccessKind) :
    AccessQuiet s k := by
  cases k <;> simp [AccessQuiet, missPresented, errorPresented, exceptionPresented, h]

/-- The route of an access to an architectural address space that is not translated. -/
theorem route_plain (s : State) (k : AccessKind) (asi : BitVec 8) (va : Word) (store : Bool)
    (hq : missPresented s k = none) (ha : architecturalAsis.contains asi = true)
    (ht : translating s = false) :
    route s k asi va store = .ok (.memory asi va.toNat false) s := by
  have hd : decodedAsi s.cfg asi = asi := by unfold decodedAsi; rw [ha]; rfl
  unfold route asiKind
  simp only [hq, hd, ha, ht, if_true, Bool.false_eq_true, if_false]

/-- Without translation no PTE makes a location I/O: MEMORY_MAP alone says what stands at an address. -/
theorem locationKind_plain (s : State) (asi : BitVec 8) (va : Word) (pa : Nat) (ht : translating s = false) :
    locationKind s asi va pa = regionKind s.cfg asi pa := by
  unfold locationKind ioByEntry
  rw [ht]
  cases regionKind s.cfg asi pa <;> simp

/-- A read of untranslated real memory through an architectural address space. -/
theorem memRead_plain (s : State) (k : AccessKind) (asi : BitVec 8) (va : Word) (size : Size)
    (hq : AccessQuiet s k) (ha : architecturalAsis.contains asi = true) (ht : translating s = false)
    (hr : regionKind s.cfg asi va.toNat = .realMemory) :
    memRead s k asi va size = .ok (s.mem.read va.toNat size) s := by
  unfold memRead
  rw [route_plain s k asi va false hq.1 ha ht]
  simp only [MemRes.andThen, readAt, physicalRead, hq.2.1, hq.2.2, locationKind_plain s asi va va.toNat ht, hr,
    Bool.false_eq_true, if_false]

/-- A write of untranslated real memory through an architectural address space. -/
theorem memWrite_plain (s : State) (k : AccessKind) (asi : BitVec 8) (va v : Word) (size : Size)
    (hq : AccessQuiet s k) (ha : architecturalAsis.contains asi = true) (ht : translating s = false)
    (hr : regionKind s.cfg asi va.toNat = .realMemory) :
    memWrite s k asi va v size = .ok () (storeAt (clearBarrier s) va va.toNat v size) := by
  have hq' : AccessQuiet (clearBarrier s) k := hq
  have hl : locationKind (clearBarrier s) asi va va.toNat = .realMemory :=
    (locationKind_plain (clearBarrier s) asi va va.toNat ht).trans hr
  unfold memWrite writeRoute
  rw [route_plain (clearBarrier s) k asi va true hq'.1 ha ht]
  simp only [MemRes.andThen, writeAt, physicalWrite, hq'.2.1, hq'.2.2, hl, Bool.false_eq_true, if_false]

/-- Ordinary loads and stores use an architectural address space. -/
theorem dataAsi_architectural (s : State) : architecturalAsis.contains (dataAsi s) = true := by
  unfold dataAsi
  split <;> rfl

theorem fetchAsi_architectural (s : State) : architecturalAsis.contains (fetchAsi s) = true := by
  unfold fetchAsi
  split <;> rfl

/-- A fetch from untranslated real memory, the instruction buffer coherent. -/
theorem fetch_plain (s : State) (hq : AccessQuiet s .fetch) (ht : translating s = false)
    (hi : s.cfg.ibufStale = false) (hr : regionKind s.cfg (fetchAsi s) s.pc.toNat = .realMemory) :
    fetch s = .ok (s.mem.read32 s.pc.toNat) s := by
  unfold fetch
  rw [route_plain s .fetch (fetchAsi s) s.pc false hq.1 (fetchAsi_architectural s) ht]
  simp only [MemRes.andThen, readAt, physicalRead, hq.2.1, hq.2.2, locationKind_plain s (fetchAsi s) s.pc _ ht, hr,
    fetchedWord, hi, Bool.false_eq_true, if_false, Memory.read, reduceCtorEq]

end Sys2Proof.Machine
end

