-- ==== Sys2Proof/Laws/Registers.lean ====
section
/-! SUPPORT. The r and f registers: a read after a write, and the windows. -/

namespace Sys2Proof.Machine

theorem two_le_nwindows (c : Config) : 2 ≤ c.nwindows := by unfold Config.nwindows; omega

theorem nwindows_le (c : Config) : c.nwindows ≤ 32 := by
  have := c.nwindowsLess2.isLt
  unfold Config.nwindows
  omega

theorem globalIndex_inj {n m : RegNum} (hn : n ≠ 0#5) (hm : m ≠ 0#5) (hn8 : n.toNat < 8)
    (hm8 : m.toNat < 8) (h : globalIndex n = globalIndex m) : n = m := by
  have hn0 : n.toNat ≠ 0 := fun h => hn (BitVec.eq_of_toNat_eq (by simpa using h))
  have hm0 : m.toNat ≠ 0 := fun h => hm (BitVec.eq_of_toNat_eq (by simpa using h))
  have := congrArg Fin.val h
  simp only [globalIndex, Fin.ofNat] at this
  rw [Nat.mod_eq_of_lt (by omega), Nat.mod_eq_of_lt (by omega)] at this
  exact BitVec.eq_of_toNat_eq (by omega)

/-- Two windowed registers of one window stand in different places. -/
theorem windowIndex_inj (c : Config) (w : BitVec 5) {n m : RegNum} (hn : 8 ≤ n.toNat)
    (hm : 8 ≤ m.toNat) (h : windowIndex c w n = windowIndex c w m) : n = m := by
  have hw := two_le_nwindows c
  have hnl := n.isLt
  have hml := m.isLt
  have := congrArg Fin.val h
  simp only [windowIndex] at this
  have h1 := Nat.div_add_mod ((n.toNat - 8) + w.toNat * 16) (16 * c.nwindows)
  have h2 := Nat.div_add_mod ((m.toNat - 8) + w.toNat * 16) (16 * c.nwindows)
  rw [this] at h1
  generalize ((n.toNat - 8) + w.toNat * 16) / (16 * c.nwindows) = q1 at h1
  generalize ((m.toNat - 8) + w.toNat * 16) / (16 * c.nwindows) = q2 at h2
  have hq : q1 = q2 := by
    rcases Nat.lt_trichotomy q1 q2 with hlt | heq | hlt
    · have : 16 * c.nwindows * (q1 + 1) ≤ 16 * c.nwindows * q2 := Nat.mul_le_mul_left _ hlt
      rw [Nat.mul_add] at this
      omega
    · exact heq
    · have : 16 * c.nwindows * (q2 + 1) ≤ 16 * c.nwindows * q1 := Nat.mul_le_mul_left _ hlt
      rw [Nat.mul_add] at this
      omega
  subst hq
  exact BitVec.eq_of_toNat_eq (by omega)

/-- r[0] reads as zero (10_state.md R24). -/
@[simp] theorem regIn_zero (s : State) (w : BitVec 5) : regIn s w 0#5 = 0#32 := rfl

/-- A write to r[0] is discarded (10_state.md R24). -/
@[simp] theorem setRegIn_zero (s : State) (w : BitVec 5) (v : Word) : setRegIn s w 0#5 v = s := rfl

/-- Reading the register that was written. -/
theorem regIn_setRegIn_same (s : State) (w : BitVec 5) (n : RegNum) (v : Word) (h : n ≠ 0#5) :
    regIn (setRegIn s w n v) w n = v := by
  unfold regIn setRegIn
  simp only [h, if_false]
  split <;> simp

/-- Reading another register of the window. -/
theorem regIn_setRegIn_ne (s : State) (w : BitVec 5) (n m : RegNum) (v : Word) (h : m ≠ n) :
    regIn (setRegIn s w n v) w m = regIn s w m := by
  by_cases hn : n = 0#5
  · subst hn; rfl
  by_cases hm : m = 0#5
  · subst hm; rfl
  unfold regIn setRegIn
  simp only [hn, hm, if_false]
  by_cases hn8 : n.toNat < 8 <;> by_cases hm8 : m.toNat < 8 <;> simp only [hn8, hm8, if_true, if_false]
  · have hi : globalIndex n ≠ globalIndex m := fun e => h (globalIndex_inj hn hm hn8 hm8 e).symm
    have hv : (globalIndex n).val ≠ (globalIndex m).val := fun e => hi (Fin.ext e)
    simp [Vector.getElem_set_ne, hv]
  · have hi : windowIndex s.cfg w n ≠ windowIndex s.cfg w m :=
      fun e => h (windowIndex_inj s.cfg w (by omega) (by omega) e).symm
    have hv : (windowIndex s.cfg w n).val ≠ (windowIndex s.cfg w m).val := fun e => hi (Fin.ext e)
    simp [Vector.getElem_set_ne, hv]

/-- Reading the register that was written. -/
theorem reg_setReg_same (s : State) (n : RegNum) (v : Word) (h : n ≠ 0#5) :
    reg (setReg s n v) n = v := by
  unfold reg
  rw [setReg_psr]
  exact regIn_setRegIn_same s s.psr.cwp n v h

/-- Reading another register. -/
theorem reg_setReg_ne (s : State) (n m : RegNum) (v : Word) (h : m ≠ n) :
    reg (setReg s n v) m = reg s m := by
  unfold reg
  rw [setReg_psr]
  exact regIn_setRegIn_ne s s.psr.cwp n m v h

/-- Reading the f register that was written. -/
@[simp] theorem freg_setFreg_same (s : State) (n : RegNum) (v : Word) : freg (setFreg s n v) n = v := by
  simp [freg, setFreg]

/-- Reading another f register. -/
theorem freg_setFreg_ne (s : State) (n m : RegNum) (v : Word) (h : m ≠ n) :
    freg (setFreg s n v) m = freg s m := by
  have hv : n.toNat ≠ m.toNat := fun e => h (BitVec.eq_of_toNat_eq e.symm)
  simp [freg, setFreg, Vector.getElem_set_ne, hv]

theorem cwpBelow_lt (c : Config) (w : BitVec 5) : (cwpBelow c w).toNat < c.nwindows := by
  have h2 := two_le_nwindows c
  have h32 := nwindows_le c
  have hlt : (w.toNat + c.nwindows - 1) % c.nwindows < c.nwindows := Nat.mod_lt _ (by omega)
  unfold cwpBelow
  rw [BitVec.toNat_ofNat, Nat.mod_eq_of_lt (by omega)]
  exact hlt

theorem cwpAbove_lt (c : Config) (w : BitVec 5) : (cwpAbove c w).toNat < c.nwindows := by
  have h2 := two_le_nwindows c
  have h32 := nwindows_le c
  have hlt : (w.toNat + 1) % c.nwindows < c.nwindows := Nat.mod_lt _ (by omega)
  unfold cwpAbove
  rw [BitVec.toNat_ofNat, Nat.mod_eq_of_lt (by omega)]
  exact hlt

end Sys2Proof.Machine
end

