-- ==== Sys2Proof/Laws/Outcome.lean ====
section
/-! SUPPORT. What a meaning can come to: each shared step of the meanings, said once for any property of
states, so that a proof about all instructions never unfolds them; and what taking a trap does. -/

namespace Sys2Proof.Machine

/-- Every state a result leaves has the property. -/
def Res.All (P : State → Prop) : Res → Prop
  | .done t => P t
  | .trap _ t => P t

/-- Every state an access leaves has the property. -/
def MemRes.All {α : Type} (P : State → Prop) : MemRes α → Prop
  | .ok _ t => P t
  | .fault _ t => P t

/-- From a result to the outcome: the property must outlast taking a trap. -/
theorem Res.All.out {P : State → Prop} (hT : ∀ t s, P s → P (takeTrap t s)) {r : Res} (h : r.All P)
    {t : State} (ho : r.out = .next t) : P t := by
  cases r with
  | done s =>
    injection ho with ho
    subst ho
    exact h
  | trap x s =>
    injection ho with ho
    subst ho
    exact hT x s h

theorem privileged_all {P : State → Prop} {s : State} {k : Res} (hs : P s) (hk : k.All P) :
    (privileged s k).All P := by
  unfold privileged
  split
  · exact hk
  · exact hs

theorem fpEnabled_all {P : State → Prop} {s : State} {k : Res} (hs : P s) (hk : k.All P) :
    (fpEnabled s k).All P := by
  unfold fpEnabled
  split
  · exact hk
  · exact hs

theorem cpEnabled_all {P : State → Prop} {s : State} {k : Res} (hs : P s) (hk : k.All P) :
    (cpEnabled s k).All P := by
  unfold cpEnabled
  split
  · exact hk
  · exact hs

theorem aligned_all {P : State → Prop} {s : State} {a : Word} {z : Size} {k : Res} (hs : P s)
    (hk : k.All P) : (aligned s a z k).All P := by
  unfold aligned
  split
  · exact hk
  · exact hs

theorem evenRd_all {P : State → Prop} {s : State} {n : RegNum} {k : Res} (hs : P s) (hk : k.All P) :
    (evenRd s n k).All P := by
  unfold evenRd
  split
  · exact hs
  · exact hk

theorem nonzeroDivisor_all {P : State → Prop} {s : State} {d : Word} {k : Res} (hs : P s)
    (hk : k.All P) : (nonzeroDivisor s d k).All P := by
  unfold nonzeroDivisor
  split
  · exact hs
  · exact hk

theorem alternate_all {P : State → Prop} {s : State} {rs1 : RegNum} {o : AltOperand}
    {k : BitVec 8 → Word → Res} (hs : P s) (hk : ∀ a v, (k a v).All P) :
    (alternate s rs1 o k).All P := by
  unfold alternate
  refine privileged_all hs ?_
  cases o with
  | reg asi rs2 => exact hk ..
  | imm v => exact hs

theorem asrPrivilege_all {P : State → Prop} {s : State} {n : RegNum} {k : Res} (hs : P s)
    (hk : k.All P) : (asrPrivilege s n k).All P := by
  unfold asrPrivilege
  split
  · exact privileged_all hs hk
  · exact hk

theorem asrPresent_all {P : State → Prop} {s : State} {n : RegNum} {k : Res} (hs : P s)
    (hk : k.All P) : (asrPresent s n k).All P := by
  unfold asrPresent
  split
  · exact hk
  · exact hs

theorem cpProvokes_all {P : State → Prop} {s : State} {k : Res} (hs : P s) (hk : k.All P) :
    (cpProvokes s k).All P := by
  unfold cpProvokes
  split
  · exact hs
  · exact hk

theorem cpAccepted_all {P : State → Prop} {s : State} {r : CpRequest} {k : Res} (hs : P s)
    (hd : P (cpDoes s r)) (hk : k.All P) : (cpAccepted s r k).All P := by
  unfold cpAccepted
  refine cpProvokes_all hs ?_
  split
  · exact hd
  · exact hk

theorem bind_all {α : Type} {P : State → Prop} {m : MemRes α} {k : α → State → Res} (hm : m.All P)
    (hk : ∀ v t, P t → (k v t).All P) : (m.bind k).All P := by
  cases m with
  | ok v t => exact hk v t hm
  | fault x t => exact hm

/-- A property that every framed access keeps holds of what a framed access leaves. -/
theorem MemRes.Framed.all {α : Type} {P : State → Prop} (hF : ∀ s t, AccessFrame s t → P s → P t)
    {s : State} (hs : P s) {m : MemRes α} (h : m.Framed s) : m.All P := by
  cases m with
  | ok v t => exact hF _ _ h hs
  | fault x t => exact hF _ _ h hs

/-- A property that every framed access keeps holds after a read. -/
theorem memRead_all {P : State → Prop} (hF : ∀ s t, AccessFrame s t → P s → P t) {s : State}
    (hs : P s) (k : AccessKind) (asi : BitVec 8) (va : Word) (size : Size) :
    (memRead s k asi va size).All P := (memRead_framed ..).all hF hs

/-- A property that every framed access keeps holds after a write. -/
theorem memWrite_all {P : State → Prop} (hF : ∀ s t, AccessFrame s t → P s → P t) {s : State}
    (hs : P s) (k : AccessKind) (asi : BitVec 8) (va v : Word) (size : Size) :
    (memWrite s k asi va v size).All P := (memWrite_framed ..).all hF hs

/-- A property that every framed access keeps holds after the two accesses of a doubleword store. -/
theorem storeTwo_all {P : State → Prop} (hF : ∀ s t, AccessFrame s t → P s → P t) {s : State}
    (hs : P s) (asi : BitVec 8) (va v0 v1 : Word) {k : State → Res} (hk : ∀ t, P t → (k t).All P) :
    (storeTwo s asi va v0 v1 k).All P :=
  bind_all ((writeRoute_framed ..).all hF hs) fun _ _ h1 =>
    bind_all ((writeAt_framed ..).all hF h1) fun _ _ h2 =>
      bind_all ((writeAt_framed ..).all hF h2) fun _ t h3 => hk t h3

/-! ### The FPU at work -/

/-- The fields that the FPU's work can change: the f registers, the FSR, its state and its queue of work. -/
structure FpFrame (s t : State) : Prop where
  rest : t =
    { s with fregs := t.fregs, fsr := t.fsr, fpuMode := t.fpuMode, fpuQueue := t.fpuQueue }

theorem FpFrame.refl (s : State) : FpFrame s s := ⟨rfl⟩

theorem FpFrame.trans {s t u : State} (h : FpFrame s t) (k : FpFrame t u) : FpFrame s u := by
  constructor
  have h1 := h.rest
  have k1 := k.rest
  rw [k1]
  rw [h1]

theorem fpWrite_frame (s : State) (w : FpWork) (bits : Nat) : FpFrame s (fpWrite s w bits) := by
  unfold fpWrite setFpBits
  split
  · split <;> exact ⟨rfl⟩
  · exact ⟨rfl⟩

theorem fpExecute_frame {s t : State} {w : FpWork} (h : fpExecute s w = .completes t) : FpFrame s t := by
  unfold fpExecute fpComplete at h
  split at h
  · cases h
  · split at h
    · cases h
    · split at h
      · cases h
      · cases h
      · simp only [] at h
        split at h
        · injection h with h
          subst h
          refine FpFrame.trans (t := { s with fsr := { s.fsr with
            cexc := (fpDelivers s w).2, aexc := s.fsr.aexc ||| (fpDelivers s w).2, ftt := 0#3 } })
            ⟨rfl⟩ (fpWrite_frame ..)
        · cases h

theorem fpExecute_mode {s t : State} {w : FpWork} (h : fpExecute s w = .completes t) :
    t.fpuMode = s.fpuMode ∧ t.fpuQueue = s.fpuQueue := by
  unfold fpExecute fpComplete at h
  split at h
  · cases h
  · split at h
    · cases h
    · split at h
      · cases h
      · cases h
      · simp only [] at h
        split at h
        · injection h with h
          subst h
          unfold fpWrite setFpBits
          split
          · split <;> exact ⟨rfl, rfl⟩
          · exact ⟨rfl, rfl⟩
        · cases h

/-- Everything the FPU's work can do to the state. -/
theorem fpEndWork_frame (n : Nat) (s : State) : FpFrame s (fpEndWork n s) := by
  induction n generalizing s with
  | zero => exact .refl s
  | succ n ih =>
    unfold fpEndWork
    split
    · split
      · next h => exact ((fpExecute_frame h).trans ⟨rfl⟩).trans (ih _)
      · exact ⟨rfl⟩
    · exact .refl s

/-- With nothing to work on the FPU does nothing. -/
theorem fpEndWork_nil (n : Nat) (s : State) (h : s.fpuQueue = []) : fpEndWork n s = s := by
  cases n with
  | zero => rfl
  | succ n =>
    unfold fpEndWork
    rw [h]
    split
    · next h' => cases h'
    · rfl

/-- The FPU ends nothing for an instruction that depends on none of its work. -/
theorem upToLast_eq_zero {p : FpWork → Bool} {ws : List FpWork} (h : ∀ w ∈ ws, p w = false) :
    upToLast p ws = 0 := by
  induction ws with
  | nil => rfl
  | cons w ws ih =>
    simp [upToLast, ih fun v hv => h v (List.mem_cons_of_mem _ hv), h w List.mem_cons_self]

theorem fpProvokes_all {P : State → Prop} {s : State} {k : Res} (hs : P s)
    (hk : (∀ r, s.fpuMode ≠ .pending r) → k.All P) : (fpProvokes s k).All P := by
  unfold fpProvokes
  split
  · exact hs
  · next h => exact hk h

theorem fpInSequence_all {P : State → Prop} {s : State} {k : Res}
    (hx : s.fpuMode = .exception → P (advance { s with fpuMode := .pending (fpRecord 4#3) }))
    (hk : s.fpuMode ≠ .exception → k.All P) : (fpInSequence s k).All P := by
  unfold fpInSequence
  split
  · next h => exact hx h
  · next h => exact hk h

/-- A property that the FPU's work keeps holds behind it. -/
theorem fpSettled_all {P : State → Prop} (hF : ∀ n s, P s → P (fpEndWork n s)) {s : State} (hs : P s)
    (depends : FpWork → Bool) {k : State → Res} (hk : ∀ t, P t → (k t).All P) :
    (fpSettled s depends k).All P :=
  fpProvokes_all (hF _ _ hs) fun _ => hk _ (hF _ _ hs)

/-- If the FPU works on nothing the instruction depends on, and nothing waits, it goes on. -/
theorem fpSettled_independent (s : State) (depends : FpWork → Bool) (k : State → Res)
    (hm : ∀ r, s.fpuMode ≠ .pending r) (h : ∀ w ∈ s.fpuQueue, depends w = false) :
    fpSettled s depends k = k s := by
  unfold fpSettled fpSettle
  rw [upToLast_eq_zero h]
  show fpProvokes s (k s) = k s
  unfold fpProvokes
  split
  · next r hr => exact absurd hr (hm r)
  · rfl

theorem evenFreg_all {P : State → Prop} (hF : ∀ n s, P s → P (fpEndWork n s)) {s : State} (hs : P s)
    {n : RegNum} {k : Res} (hk : k.All P) : (evenFreg s n k).All P := by
  unfold evenFreg
  split
  · exact fpSettled_all hF hs _ fun _ h => h
  · exact hk

/-- A property that writes of f registers keep holds after a part of a floating-point load. -/
theorem fpBind_all {α : Type} {P : State → Prop} (hR : ∀ s n v, P s → P (setFreg s n v)) {m : MemRes α}
    {dests : List RegNum} {k : α → State → Res} (hm : m.All P) (hk : ∀ v t, P t → (k v t).All P) :
    (fpBind m dests k).All P := by
  have hd : ∀ (ds : List RegNum) (t : State), P t → P (ds.foldl faultedFreg t) := by
    intro ds
    induction ds with
    | nil => exact fun _ h => h
    | cons d ds ih =>
      refine fun t h => ih _ ?_
      unfold faultedFreg
      split
      · exact h
      · exact hR _ _ _ h
  unfold fpBind
  split
  · exact hk _ _ hm
  · exact hd _ _ hm
  · exact hm

/-! ### Delayed writes and traps -/

/-- The fields that delayed writes and traps leave alone. -/
structure TrapFrame (s t : State) : Prop where
  cfg : t.cfg = s.cfg
  psoMode : t.psoMode = s.psoMode
  ioTrace : t.ioTrace = s.ioTrace
  fregs : t.fregs = s.fregs
  cp : t.cp = s.cp
  mem : t.mem = s.mem
  staleWords : t.staleWords = s.staleWords
  mmu : t.mmu = s.mmu
  storeBarrierPending : t.storeBarrierPending = s.storeBarrierPending
  instruction : t.instruction = s.instruction
  inputs : t.inputs = s.inputs
  now : t.now = s.now
  freeDraws : t.freeDraws = s.freeDraws

theorem TrapFrame.refl (s : State) : TrapFrame s s := ⟨rfl, rfl, rfl, rfl, rfl, rfl, rfl, rfl, rfl, rfl, rfl, rfl, rfl⟩

theorem TrapFrame.trans {s t u : State} (h : TrapFrame s t) (k : TrapFrame t u) : TrapFrame s u :=
  ⟨k.cfg.trans h.cfg, k.psoMode.trans h.psoMode, k.ioTrace.trans h.ioTrace, k.fregs.trans h.fregs, k.cp.trans h.cp, k.mem.trans h.mem,
    k.staleWords.trans h.staleWords, k.mmu.trans h.mmu,
    k.storeBarrierPending.trans h.storeBarrierPending, k.instruction.trans h.instruction,
    k.inputs.trans h.inputs, k.now.trans h.now, k.freeDraws.trans h.freeDraws⟩

theorem commit_frame (s : State) (p : PendingWrite) : TrapFrame s (commit s p) := by
  unfold commit
  split <;> exact ⟨rfl, rfl, rfl, rfl, rfl, rfl, rfl, rfl, rfl, rfl, rfl, rfl, rfl⟩

theorem foldl_commit_frame (ps : List PendingWrite) (s : State) :
    TrapFrame s (ps.foldl commit s) := by
  induction ps generalizing s with
  | nil => exact .refl s
  | cons p ps ih => exact (commit_frame s p).trans (ih (commit s p))

theorem commitAll_frame (s : State) : TrapFrame s (commitAll s) := by
  have h := foldl_commit_frame s.pending s
  exact ⟨h.cfg, h.psoMode, h.ioTrace, h.fregs, h.cp, h.mem, h.staleWords, h.mmu, h.storeBarrierPending,
    h.instruction, h.inputs, h.now, h.freeDraws⟩

theorem commitPending_frame (s : State) : TrapFrame s (commitPending s) := by
  have h := commitAll_frame s
  exact ⟨h.cfg, h.psoMode, h.ioTrace, h.fregs, h.cp, h.mem, h.staleWords, h.mmu, h.storeBarrierPending,
    h.instruction, h.inputs, h.now, h.freeDraws⟩

theorem tickPending_frame (s : State) : TrapFrame s (tickPending s) := by
  unfold tickPending
  simp only []
  generalize List.filter (fun p : PendingWrite => p.countdown == 0) _ = ps
  have h := foldl_commit_frame ps s
  exact ⟨h.cfg, h.psoMode, h.ioTrace, h.fregs, h.cp, h.mem, h.staleWords, h.mmu, h.storeBarrierPending,
    h.instruction, h.inputs, h.now, h.freeDraws⟩

theorem recordFp_frame (s : State) (r : FpRecord) : TrapFrame s (recordFp s r) := by
  unfold recordFp
  simp only []
  split <;> exact ⟨rfl, rfl, rfl, rfl, rfl, rfl, rfl, rfl, rfl, rfl, rfl, rfl, rfl⟩

theorem recordTrap_frame (s : State) (t : Trap) : TrapFrame s (recordTrap s t) := by
  unfold recordTrap
  split
  · exact recordFp_frame ..
  · exact ⟨rfl, rfl, rfl, rfl, rfl, rfl, rfl, rfl, rfl, rfl, rfl, rfl, rfl⟩
  · exact .refl s

theorem setReg_trapFrame (s : State) (n : RegNum) (v : Word) : TrapFrame s (setReg s n v) := by
  constructor <;> simp

theorem enterWindow_frame (s : State) : TrapFrame s (enterWindow s) := by
  unfold enterWindow
  simp only []
  constructor <;> simp

theorem enterTrap_frame (t : Trap) (s : State) : TrapFrame s (enterTrap t s) := by
  have h := (recordTrap_frame s t).trans (enterWindow_frame _)
  exact ⟨h.cfg, h.psoMode, h.ioTrace, h.fregs, h.cp, h.mem, h.staleWords, h.mmu, h.storeBarrierPending,
    h.instruction, h.inputs, h.now, h.freeDraws⟩

theorem enterError_frame (s : State) : TrapFrame s (enterError s) :=
  ⟨rfl, rfl, rfl, rfl, rfl, rfl, rfl, rfl, rfl, rfl, rfl, rfl, rfl⟩

/-- Taking a trap leaves memory, the f registers, the coprocessor, the MMU and the configuration alone
(60_exceptions.md R740). -/
theorem takeTrap_frame (t : Trap) (s : State) : TrapFrame s (takeTrap t s) := by
  unfold takeTrap
  simp only []
  split
  · exact (commitPending_frame s).trans (enterTrap_frame ..)
  · exact (commitPending_frame s).trans (enterError_frame _)

theorem rettError_frame (t : Trap) (s : State) : TrapFrame s (rettError t s) := by
  have h := commitPending_frame s
  exact ⟨h.cfg, h.psoMode, h.ioTrace, h.fregs, h.cp, h.mem, h.staleWords, h.mmu, h.storeBarrierPending,
    h.instruction, h.inputs, h.now, h.freeDraws⟩

end Sys2Proof.Machine
end

