-- ==== Sys2Proof/Laws/Places.lean ====
section
/-! SUPPORT. What an access comes to by the place where it takes place (`Place` of Safety.lean): the route it takes,
what it reads and what it does to the state. -/

namespace Sys2Proof.Machine

/-- A route that leads to a place, in the state it is found in. -/
inductive Reaches (t : State) (va : Word) (size : Size) (asi : BitVec 8) : Place → Route → Prop where
  | memory {place : Place} (pa : Nat) (mmu : Bool) (h : Stands place size (locationKind t asi va) pa) :
    Reaches t va size asi place (.memory asi pa mmu)
  | device : Reaches t va size asi (.io va.toNat) (.device asi)
  | suppressed (pa : Option Nat) : Reaches t va size asi (.suppressed pa) (.suppressed asi pa)

/-- In an address space that is none of the four architectural ones MEMORY_MAP alone says what stands. -/
theorem locationKind_other (s : State) (asi : BitVec 8) (va : Word) (pa : Nat)
    (h : architecturalAsis.contains asi = false) : locationKind s asi va pa = regionKind s.cfg asi pa := by
  unfold locationKind ioByEntry
  rw [h]
  cases regionKind s.cfg asi pa <;> simp

theorem decodedAsi_physical {c : Config} {asi : BitVec 8} {up : BitVec 4} {pass : Bool}
    (h : asiKind c asi = .physical up pass) : architecturalAsis.contains (decodedAsi c asi) = false := by
  unfold asiKind at h
  by_contra hc
  simp at hc
  simp [hc] at h

/-- Untranslated: the access is routed to its place and changes nothing. -/
theorem route_plainAt {s : State} {p : Place} {asi : BitVec 8} {a : Word} {z : Size} (h : PlainAt s p asi a z)
    (k : AccessKind) (store : Bool) :
    ∃ r, route s k asi a store = .ok r s ∧ Reaches s a z (decodedAsi s.cfg asi) p r := by
  obtain ⟨hm, -, h⟩ := h
  have hq := (accessQuiet_of_none hm k).1
  unfold route
  simp only [hq]
  rcases h with ⟨hd, rfl⟩ | ⟨pa, hp, hs⟩
  · exact ⟨_, by simp only [hd], .device⟩
  · unfold plainPa at hp
    split at hp
    · next h =>
      split at hp
      · cases hp
      · next ht =>
        simp only [Bool.not_eq_true] at ht
        cases hp
        refine ⟨.memory _ a.toNat false, by simp [h, ht], .memory _ _ ⟨?_, fun hz => ?_⟩⟩
        · rw [locationKind_plain _ _ _ _ ht]; exact hs.1
        · rw [locationKind_plain _ _ _ _ ht]; exact hs.2 hz
    · next h =>
      cases hp
      have ha := decodedAsi_physical h
      refine ⟨_, by simp only [h]; rfl, .memory _ _ ⟨?_, fun hz => ?_⟩⟩
      · rw [locationKind_other _ _ _ _ ha]; exact hs.1
      · rw [locationKind_other _ _ _ _ ha]; exact hs.2 hz
    · cases hp

theorem recordFault_nf (s : State) (k : FaultClass) (l : BitVec 2) (a f : BitVec 3) (b : Bool) (va : Word) :
    (recordFault s k l a f b va).mmu.nf = s.mmu.nf := by
  unfold recordFault
  split <;> rfl

theorem markAccessed_nf (s : State) (x : PdcEntry) (store : Bool) : (markAccessed s x store).mmu.nf = s.mmu.nf := by
  unfold markAccessed
  simp only []
  split <;> rfl

theorem checkedAccess_nf (s : State) (x : PdcEntry) (asi : BitVec 8) (va : Word) (store : Bool) :
    (checkedAccess s x asi va store).state.mmu.nf = s.mmu.nf := by
  unfold checkedAccess
  simp only []
  split
  · exact markAccessed_nf ..
  · exact recordFault_nf ..

/-- No translation changes NF. -/
theorem translateCached_nf (s : State) (k : AccessKind) (asi : BitVec 8) (va : Word) (store : Bool) :
    (translateCached s k asi va store).state.mmu.nf = s.mmu.nf := by
  unfold translateCached
  split
  · exact checkedAccess_nf ..
  · split
    · exact checkedAccess_nf ..
    · exact recordFault_nf ..

/-- Translated: the access is routed to its place, in the state that the translation leaves. -/
theorem route_translatedAt {s : State} {p : Place} {asi : BitVec 8} {a : Word} {z : Size} {k : AccessKind}
    {store : Bool} {t : State}
    (h : TranslatedAt s p asi a z
      (if k = .second then translateCached s k (decodedAsi s.cfg asi) a store
        else translate s k (decodedAsi s.cfg asi) a store) t) :
    ∃ r, route s k asi a store = .ok r t ∧ Reaches t a z (decodedAsi s.cfg asi) p r := by
  obtain ⟨hm, -, hn, ht, h⟩ := h
  have hq := (accessQuiet_of_none hm k).1
  have hi : internalPresented s k = false := by cases k <;> simp [internalPresented, hm]
  have hnf : (if k = .second then translateCached s k (decodedAsi s.cfg asi) a store
        else translate s k (decodedAsi s.cfg asi) a store).state.mmu.nf = s.mmu.nf := by
    split
    · exact translateCached_nf ..
    · exact translateCached_nf ..
  unfold route translatedRoute
  simp only [hq, hn, ht, hi, if_true, Bool.false_eq_true, if_false]
  rcases h with ⟨pa, l, ho, hs⟩ | ⟨hf, hx, ft, q, ho, rfl⟩
  · rw [ho]
    exact ⟨_, rfl, .memory _ _ hs⟩
  · rw [ho] at hnf ⊢
    have hfs : faultSuppressed t (decodedAsi s.cfg asi) = true := by
      unfold faultSuppressed
      rw [show t.mmu.nf = true from hnf.trans hf]
      simpa using hx
    simp only [mmuFault, hfs, if_true]
    exact ⟨_, rfl, .suppressed _⟩

/-- Where a read takes place it is routed. -/
theorem route_loadAt {s t : State} {p : Place} {asi : BitVec 8} {a : Word} {z : Size} (h : LoadAt s p asi a z t) :
    ∃ r, route s .first asi a false = .ok r t ∧ Reaches t a z (decodedAsi s.cfg asi) p r := by
  rcases h with ⟨h, rfl⟩ | h
  · exact route_plainAt h ..
  · exact route_translatedAt (k := .first) h

/-- Where a write takes place it is routed. -/
theorem writeRoute_storeAt {s t : State} {p : Place} {asi : BitVec 8} {a : Word} {z : Size}
    (h : StoreAt s p asi a z t) :
    ∃ r, writeRoute s .first asi a = .ok r t ∧ Reaches t a z (decodedAsi s.cfg asi) p r := by
  rcases h with ⟨h, rfl⟩ | h
  · exact route_plainAt (s := { s with storeBarrierPending := false }) h ..
  · exact route_translatedAt (s := { s with storeBarrierPending := false }) (k := .first) h

/-- Where the write of an atomic takes place it is routed. -/
theorem writeRoute_writeHalfAt {s t : State} {p : Place} {asi : BitVec 8} {a : Word} {z : Size}
    (h : WriteHalfAt s p asi a z t) :
    ∃ r, writeRoute s .second asi a = .ok r t ∧ Reaches t a z (decodedAsi s.cfg asi) p r := by
  rcases h with ⟨h, rfl⟩ | h
  · exact route_plainAt (s := { s with storeBarrierPending := false }) h ..
  · exact route_translatedAt (s := { s with storeBarrierPending := false }) (k := .second) h

theorem narrow_eq_cutTo (v : Word) (z : Size) : z.narrow v = cutTo v z := by
  cases z <;> simp [Size.narrow, cutTo, Size.bytes] <;> apply BitVec.eq_of_toNat_eq <;>
    simp [BitVec.extractLsb'_toNat] <;> omega

theorem cutTo_cutTo (v : Word) (z : Size) : cutTo (cutTo v z) z = cutTo v z := by
  cases z <;> simp [cutTo, Size.bytes]

theorem read_eq_valueAt (s : State) (pa : Nat) (z : Size) : s.mem.read pa z = valueAt s pa z := by
  cases z <;> rfl

/-- The read of an access at its place delivers what stands there. -/
theorem readAt_delivers {t : State} {p : Place} {asi a' : BitVec 8} {va : Word} {y z : Size} {r : Route}
    {k : AccessKind} (hm : t.now.machineCheck = none) (hk : k ≠ .fetch) (ha : a' = decodedAsi t.cfg asi)
    (h : Reaches t va y a' p r) :
    ∃ v u, readAt t k r va z = .ok v u ∧ Delivers p t asi z (k = .second) v u := by
  have hq := accessQuiet_of_none hm k
  have hio : ∀ d, t.now.io = some d → ioWord t k = if decide (k = .second) = true then d.second else d.first := by
    intro d hd
    cases k <;> simp_all [ioWord]
  have io : ∀ pa : Nat, ∃ v u, ioRead t k a' pa z = .ok v u ∧ Delivers (.io pa) t asi z (k = .second) v u := by
    intro pa
    refine ⟨_, _, rfl, ?_, fun d hd => ?_, ?_⟩
    · rw [narrow_eq_cutTo, cutTo_cutTo]
    · rw [narrow_eq_cutTo, hio d hd]
    · subst ha
      rfl
  cases h with
  | memory pa mmu h =>
    have h1 := h.1
    simp only [readAt, physicalRead, hq.2.1, hq.2.2, Bool.false_eq_true, if_false]
    split <;> rename_i hl <;> rw [hl] at h1 <;> simp only [Place.standing, Option.some.injEq, reduceCtorEq] at h1 <;>
      subst h1
    · exact ⟨_, _, rfl, read_eq_valueAt .., rfl⟩
    · exact ⟨_, _, rfl, read_eq_valueAt .., rfl⟩
    · exact io pa
  | device =>
    have : presented t k = none := by cases k <;> simp [presented, errorPresented, exceptionPresented, hm]
    simp only [readAt, deviceRead, this]
    exact io _
  | suppressed pa =>
    refine ⟨_, _, rfl, ?_, rfl⟩
    rw [narrow_eq_cutTo, cutTo_cutTo]

/-- What the write of one datum does at a place. -/
def placeWrite (place : Place) (t : State) (k : AccessKind) (asi : BitVec 8) (va v : Word) (size : Size) :
    MemRes Unit :=
  match place with
  | .memory pa => .ok () (storeAt t va pa v size)
  | .readOnly _ => if t.cfg.romStoreTraps then .fault (accessException k) t else .ok () t
  | .io pa => .ok () (ioPerformed t true asi pa size (cutTo v size))
  | .suppressed pa => suppressedWrite t asi va pa v size

/-- The write of an access at its place. -/
theorem writeAt_place {t : State} {p : Place} {asi : BitVec 8} {va : Word} {y : Size} {r : Route}
    (hm : t.now.machineCheck = none) (h : Reaches t va y asi p r) (k : AccessKind) (v : Word) (z : Size) :
    writeAt t k r va v z = placeWrite p t k asi va v z := by
  have hq := accessQuiet_of_none hm k
  cases h with
  | memory pa mmu h =>
    have h1 := h.1
    simp only [writeAt, physicalWrite, hq.2.1, hq.2.2, Bool.false_eq_true, if_false]
    split <;> rename_i hl <;> rw [hl] at h1 <;> simp only [Place.standing, Option.some.injEq, reduceCtorEq] at h1 <;>
      subst h1
    · rfl
    · rfl
    · simp only [placeWrite, ioWrite, narrow_eq_cutTo]
  | device =>
    have : presented t k = none := by cases k <;> simp [presented, errorPresented, exceptionPresented, hm]
    simp only [writeAt, deviceWrite, this, placeWrite, ioWrite, narrow_eq_cutTo]
  | suppressed pa => rfl

/-- The second word of a doubleword lies in the same page as the first. -/
theorem pdcPte_next {t u : State} {va : Word} (hm : u.mmu = t.mmu) (hc : u.cfg = t.cfg) (ha : va.toNat % 8 = 0) :
    pdcPte u (va + 4#32) = pdcPte t va := by
  have hs : ∀ (l : Nat) (b : Word), sameRegion l b (va + 4#32) = sameRegion l b va := by
    intro l b
    have h1 : (va + 4#32).toNat = va.toNat + 4 := by
      have := va.isLt
      rw [BitVec.toNat_add]
      simp
      omega
    have : ∀ n : Nat, 3 ≤ n → (va.toNat + 4) / 2 ^ n = va.toNat / 2 ^ n := by
      intro n hn
      obtain ⟨m, rfl⟩ := Nat.exists_eq_add_of_le hn
      rw [Nat.pow_add, ← Nat.div_div_eq_div_mul, ← Nat.div_div_eq_div_mul]
      congr 1
      omega
    unfold sameRegion
    rw [h1, this _ (by unfold regionShift; split <;> omega)]
  unfold pdcPte pdcMatches contextMatches
  simp only [hm, hc, hs]

/-- The route of the second word leads to the next place, in any state with the MMU of the first. -/
theorem Reaches.next {t u : State} {p : Place} {asi : BitVec 8} {va : Word} {r : Route}
    (h : Reaches t va .dword asi p r) (hm : u.mmu = t.mmu) (hc : u.cfg = t.cfg) (ha : va.toNat % 8 = 0) :
    Reaches u (va + 4#32) .word asi p.next r.next := by
  cases h with
  | memory pa mmu h =>
    refine .memory _ _ ⟨?_, fun hz => by cases hz⟩
    rw [← h.2 rfl]
    unfold locationKind ioByEntry translating
    rw [pdcPte_next hm hc ha, hm, hc]
  | device =>
    have h1 : (va + 4#32).toNat = va.toNat + 4 := by
      have := va.isLt
      rw [BitVec.toNat_add]
      simp
      omega
    have := Reaches.device (t := u) (va := va + 4#32) (size := .word) (asi := asi)
    rw [h1] at this
    exact this
  | suppressed pa => exact .suppressed _

theorem LoadAt.quiet {s t : State} {p : Place} {asi : BitVec 8} {a : Word} {z : Size} (h : LoadAt s p asi a z t) :
    s.now.machineCheck = none := by
  rcases h with ⟨h, -⟩ | h
  · exact h.1
  · exact h.1

/-- A read at a place delivers what stands there. -/
theorem memRead_loadAt {s t : State} {p : Place} {asi : BitVec 8} {a : Word} {z : Size} (h : LoadAt s p asi a z t) :
    ∃ v u, memRead s .first asi a z = .ok v u ∧ Delivers p t asi z false v u := by
  obtain ⟨r, hr, hp⟩ := route_loadAt h
  have hf := route_framed s .first asi a false
  rw [hr] at hf
  have hf := hf.rest
  have h1 : t.cfg = s.cfg := by rw [hf]
  have h2 : t.now = s.now := by rw [hf]
  unfold memRead
  rw [hr]
  exact readAt_delivers (k := .first) (by rw [h2]; exact h.quiet) (by simp) (by rw [h1]) hp

/-- One word stored leaves one copy. -/
theorem copiesKept_storeAt (s : State) (va : Word) (pa : Nat) (v : Word) (z : Size) :
    CopiesKept s (storeAt s va pa v z) va pa 1 (fun _ => true) := by
  unfold CopiesKept storeAt keepStale
  have h (a : Nat) (ha : a < pa) : (s.mem.write pa v z).read8 a = s.mem.read8 a :=
    Memory.read8_write_outside _ _ _ _ _ (.inl ha)
  have e (a : Nat) : (if a < pa then (s.mem.write pa v z).read8 a else s.mem.read8 a) = s.mem.read8 a := by
    split
    · exact h a ‹_›
    · rfl
  split
  · simp [e, Memory.read32, List.range_succ]
  · simp

/-- Two words stored one after the other leave two, the first stored already when the second is. -/
theorem copiesKept_two (s : State) (va : Word) (pa : Nat) (v w : Word) :
    CopiesKept s (storeAt (storeAt s va pa v .dword) (va + 4#32) (pa + 4) w .dword) va pa 2 (fun _ => true) := by
  have h1 (a : Nat) (ha : a < pa) : (s.mem.write pa v .dword).read8 a = s.mem.read8 a :=
    Memory.read8_write_outside _ _ _ _ _ (.inl ha)
  have h2 (a : Nat) (ha : pa + 4 ≤ a) : (s.mem.write pa v .dword).read8 a = s.mem.read8 a :=
    Memory.read8_write_outside _ _ _ _ _ (.inr (by simpa [Size.bytes] using ha))
  have h3 (a : Nat) (ha : a < pa + 4) : ((s.mem.write pa v .dword).write (pa + 4) w .dword).read8 a =
      (s.mem.write pa v .dword).read8 a := Memory.read8_write_outside _ _ _ _ _ (.inl ha)
  have e0 (a : Nat) : (if a < pa then ((s.mem.write pa v .dword).write (pa + 4) w .dword).read8 a else s.mem.read8 a)
      = s.mem.read8 a := by
    split
    · rw [h3 a (by omega), h1 a ‹_›]
    · rfl
  have e1 (a : Nat) : (if a < pa + 4 then ((s.mem.write pa v .dword).write (pa + 4) w .dword).read8 a
      else s.mem.read8 a) = (s.mem.write pa v .dword).read8 a := by
    split
    · rw [h3 a ‹_›]
    · rw [h2 a (by omega)]
  unfold CopiesKept
  by_cases hi : s.cfg.ibufStale = true
  · have q1 := e1 ((pa / 4 + 1) * 4 + 1)
    have q2 := e1 ((pa / 4 + 1) * 4 + 2)
    have q3 := e1 ((pa / 4 + 1) * 4 + 3)
    simp at q1 q2 q3
    simp [storeAt, keepStale, hi, e0, e1, Memory.read32, List.range_succ, q1, q2, q3]
  · simp [storeAt, keepStale, hi]

end Sys2Proof.Machine
end

