-- ==== Sys2Proof/Tests/Slice0.lean ====
section
/-! SUPPORT. Tests: ill-formed terms, a word of every row of the opcode table written out from the spec's
encoding, the vectors of 95_test_vectors.md Part B, and for each statement with hypotheses a state and
operands that meet them. -/

namespace Sys2Proof.Tests

open Sys2Proof.Machine

/-! ### Ill-formed terms -/

/-- `sethi 0, %g0` is NOP's word (30_encoding.md R236). -/
theorem test_illformed_sethi : Instr.wellFormed (.sethi 0#5 0#22) = false := by decide

/-- RDASR of register 0 is RDY, and of register 15 into r[0] STBAR (43_state_regs_misc.md R561). -/
theorem test_illformed_rdasr :
    Instr.wellFormed (.rdasr 3#5 0#5) = false ∧ Instr.wellFormed (.rdasr 0#5 15#5) = false ∧
      Instr.wellFormed (.rdasr 1#5 15#5) = true := by decide

/-- WRASR of register 0 is WRY (43_state_regs_misc.md R571). -/
theorem test_illformed_wrasr : Instr.wellFormed (.wrasr 0#5 1#5 (.reg 2#5)) = false := by decide

/-- FADDs' opf is no unassigned one (30_encoding.md R239). -/
theorem test_illformed_fpop1 : Instr.wellFormed (.fpop1Unassigned 0#5 0#5 0x041#9 0#5) = false := by
  decide

/-- FCMPs' opf is no unassigned one (30_encoding.md R240). -/
theorem test_illformed_fpop2 : Instr.wellFormed (.fpop2Unassigned 0#5 0#5 0x051#9 0#5) = false := by
  decide

/-- op2 = 2 is Bicc (30_encoding.md R236). -/
theorem test_illformed_op2 : Instr.wellFormed (.unassignedOp2 2#3) = false := by decide

/-- op3 = 0 is ADD and LD (30_encoding.md R237, R238). -/
theorem test_illformed_op3 :
    Instr.wellFormed (.unassignedOp3Arith 0x00#6) = false ∧
      Instr.wellFormed (.unassignedOp3Mem 0x00#6) = false := by decide

/-! ### Decoding -/

/-- The word decodes to the instruction. -/
def reads (w : Word) (i : Instr) : Bool :=
  match decode (bytesOfWord w) with
  | .ok (j, []) => j == i
  | _ => false

/-- A word cut short is refused. -/
theorem test_decode_truncated : (decode [0x01#8, 0#8, 0#8]).isOk = false := by decide

/-- The worked encodings of 30_encoding.md R275. -/
theorem test_decode_worked :
    (reads 0x86004002#32 (.add 3#5 1#5 (.reg 2#5)) && reads 0x86007FFF#32 (.add 3#5 1#5 (.imm 0x1FFF#13)) &&
      reads 0x80A22005#32 (.subcc 0#5 8#5 (.imm 5#13)) && reads 0x03048D15#32 (.sethi 1#5 0x048D15#22) &&
      reads 0x82106278#32 (.or 1#5 1#5 (.imm 0x278#13)) && reads 0xD2022004#32 (.ld 9#5 8#5 (.imm 4#13)) &&
      reads 0xD222000A#32 (.st 9#5 8#5 (.reg 10#5)) &&
      reads 0xD2820400#32 (.lda 9#5 8#5 (.reg 0x20#8 0#5)) && reads 0x10800002#32 (.ba false 2#22) &&
      reads 0x32BFFFFF#32 (.bne true 0x3FFFFF#22) && reads 0x40000040#32 (.call 0x40#30) &&
      reads 0x81C3E008#32 (.jmpl 0#5 15#5 (.imm 8#13)) &&
      reads 0x9DE3BFA0#32 (.save 14#5 14#5 (.imm 0x1FA0#13)) &&
      reads 0x89A00842#32 (.faddd 4#5 0#5 2#5) && reads 0x81A84A22#32 (.fcmps 1#5 2#5) &&
      reads 0xA1480000#32 (.rdpsr 16#5) && reads 0x818C2020#32 (.wrpsr 16#5 (.imm 0x20#13)) &&
      reads 0x8143C000#32 .stbar && reads 0x01000000#32 .nop &&
      reads 0xD2822000#32 (.lda 9#5 8#5 (.imm 0#13))) = true := by decide

/-- Bits the hardware ignores: bits 12:5 of a shift and of i = 0, bits 13:0 of STBAR (30_encoding.md R242;
41_integer_alu.md section 4; 43_state_regs_misc.md R580). -/
theorem test_decode_ignored_bits :
    (reads 0x953A2FE4#32 (.sra 10#5 8#5 (.imm 4#5)) && reads 0x86005FE2#32 (.add 3#5 1#5 (.reg 2#5)) &&
      reads 0x8143FFFF#32 .stbar && reads 0x03000000#32 (.sethi 1#5 0#22)) = true := by decide

/-! ### One step: the states of 95_test_vectors.md Part B -/

/-- icc by its four bits N, Z, V, C. -/
def bits4 (n : BitVec 4) : Icc := ⟨n.getLsbD 3, n.getLsbD 2, n.getLsbD 1, n.getLsbD 0⟩

/-- PSR 000000A3 with these icc, and EC and EF as given. -/
def startPsr (i : BitVec 4) (units : Bool) : Psr := ⟨bits4 i, units, units, 0#4, true, false, true, 3#5⟩

/-- Bytes 80 91 A2 B3 C4 D5 E6 F7 at 2000. -/
def vectorMem : Memory := (Memory.write32 [] 0x2000 0x8091A2B3#32).write32 0x2004 0xC4D5E6F7#32

/-- The registers hold these values. -/
def withRegs (s : State) (xs : List (RegNum × Word)) : State := xs.foldl (fun s x => setReg s x.1 x.2) s

/-- The start state of Part B with this PSR, Y and these r registers. -/
def startWith (p : Psr) (y : Word) (xs : List (RegNum × Word)) : State :=
  withRegs
    { State.reset with
      pc := 0x1000#32, npc := 0x1004#32, psr := p, tbr := ⟨4#20, 0#8⟩, y := y, mem := vectorMem } xs

/-- The same with these icc. -/
def start (i : BitVec 4) (xs : List (RegNum × Word)) : State := startWith (startPsr i true) 0#32 xs

/-- The step with this word at PC ends in a next state with a property. -/
def after (s : State) (w : Nat) (f : State → Bool) : Bool :=
  match step (s.withFetchWord 32 w) with
  | .next t => f t
  | _ => false

/-- The trap of this type was taken at 1000 (95_test_vectors.md, Part B, "trap tt"). -/
def trapped (tt : Nat) (t : State) : Bool :=
  let v := BitVec.ofNat 32 (0x4000 + tt * 16)
  t.pc == v && t.npc == v + 4#32 && tbrWord t == v && !t.psr.et && t.psr.ps && t.psr.s
    && t.psr.cwp == 2#5 && reg t 17#5 == 0x1000#32 && reg t 18#5 == 0x1004#32

/-- The next instruction follows. -/
def goesOn (t : State) : Bool := t.pc == 0x1004#32 && t.npc == 0x1008#32

/-- A row of B3 or B4: %o0, %o1, icc before; %o2, icc after. -/
def alu (w : Nat) (a b : Word) (i : BitVec 4) (r : Word) (j : BitVec 4) : Bool :=
  after (start i [(8#5, a), (9#5, b), (10#5, 0xDEADBEEF#32)]) w fun t =>
    reg t 10#5 == r && t.psr.icc == bits4 j && goesOn t

/-- A row of B5: %o0, %o1, Y, icc before; %o2, Y, icc after. -/
def mulDiv (w : Nat) (a b y : Word) (i : BitVec 4) (r z : Word) (j : BitVec 4) : Bool :=
  after (startWith (startPsr i true) y [(8#5, a), (9#5, b)]) w fun t =>
    reg t 10#5 == r && t.y == z && t.psr.icc == bits4 j && goesOn t

/-- Each word is the row of spec/opcode_table.json with its fields filled in by 30_encoding.md R231 to R234. -/
theorem test_decode_integer_loads_stores :
    (reads 0xEA02B234#32 (.ld 21#5 10#5 (.imm 0x1234#13)) &&
      reads 0xEA0A800D#32 (.ldub 21#5 10#5 (.reg 13#5)) &&
      reads 0xEA12B234#32 (.lduh 21#5 10#5 (.imm 0x1234#13)) &&
      reads 0xEA1A800D#32 (.ldd 21#5 10#5 (.reg 13#5)) &&
      reads 0xEA22B234#32 (.st 21#5 10#5 (.imm 0x1234#13)) &&
      reads 0xEA2A800D#32 (.stb 21#5 10#5 (.reg 13#5)) &&
      reads 0xEA32B234#32 (.sth 21#5 10#5 (.imm 0x1234#13)) &&
      reads 0xEA3A800D#32 (.std 21#5 10#5 (.reg 13#5)) &&
      reads 0xEA4AB234#32 (.ldsb 21#5 10#5 (.imm 0x1234#13)) &&
      reads 0xEA52800D#32 (.ldsh 21#5 10#5 (.reg 13#5)) &&
      reads 0xEA6AB234#32 (.ldstub 21#5 10#5 (.imm 0x1234#13)) &&
      reads 0xEA7A800D#32 (.swap 21#5 10#5 (.reg 13#5))) = true := by
  decide

/-- Each word is the row of spec/opcode_table.json with its fields filled in by 30_encoding.md R231 to R234. -/
theorem test_decode_alternate_loads_stores :
    (reads 0xEA8294AD#32 (.lda 21#5 10#5 (.reg 0xA5#8 13#5)) &&
      reads 0xEA8A94AD#32 (.lduba 21#5 10#5 (.reg 0xA5#8 13#5)) &&
      reads 0xEA9294AD#32 (.lduha 21#5 10#5 (.reg 0xA5#8 13#5)) &&
      reads 0xEA9A94AD#32 (.ldda 21#5 10#5 (.reg 0xA5#8 13#5)) &&
      reads 0xEAA294AD#32 (.sta 21#5 10#5 (.reg 0xA5#8 13#5)) &&
      reads 0xEAAA94AD#32 (.stba 21#5 10#5 (.reg 0xA5#8 13#5)) &&
      reads 0xEAB294AD#32 (.stha 21#5 10#5 (.reg 0xA5#8 13#5)) &&
      reads 0xEABA94AD#32 (.stda 21#5 10#5 (.reg 0xA5#8 13#5)) &&
      reads 0xEACA94AD#32 (.ldsba 21#5 10#5 (.reg 0xA5#8 13#5)) &&
      reads 0xEAD294AD#32 (.ldsha 21#5 10#5 (.reg 0xA5#8 13#5)) &&
      reads 0xEAEA94AD#32 (.ldstuba 21#5 10#5 (.reg 0xA5#8 13#5)) &&
      reads 0xEAFA94AD#32 (.swapa 21#5 10#5 (.reg 0xA5#8 13#5))) = true := by
  decide

/-- Each word is the row of spec/opcode_table.json with its fields filled in by 30_encoding.md R231 to R234. -/
theorem test_decode_float_cp_loads_stores :
    (reads 0xEB02B234#32 (.ldf 21#5 10#5 (.imm 0x1234#13)) &&
      reads 0xC10A800D#32 (.ldfsr 10#5 (.reg 13#5)) &&
      reads 0xEB1AB234#32 (.lddf 21#5 10#5 (.imm 0x1234#13)) &&
      reads 0xEB22800D#32 (.stf 21#5 10#5 (.reg 13#5)) &&
      reads 0xC12AB234#32 (.stfsr 10#5 (.imm 0x1234#13)) &&
      reads 0xC132800D#32 (.stdfq 10#5 (.reg 13#5)) &&
      reads 0xEB3AB234#32 (.stdf 21#5 10#5 (.imm 0x1234#13)) &&
      reads 0xEB82800D#32 (.ldc 21#5 10#5 (.reg 13#5)) &&
      reads 0xC18AB234#32 (.ldcsr 10#5 (.imm 0x1234#13)) &&
      reads 0xEB9A800D#32 (.lddc 21#5 10#5 (.reg 13#5)) &&
      reads 0xEBA2B234#32 (.stc 21#5 10#5 (.imm 0x1234#13)) &&
      reads 0xC1AA800D#32 (.stcsr 10#5 (.reg 13#5)) &&
      reads 0xC1B2B234#32 (.stdcq 10#5 (.imm 0x1234#13)) &&
      reads 0xEBBA800D#32 (.stdc 21#5 10#5 (.reg 13#5))) = true := by
  decide

/-- Each word is the row of spec/opcode_table.json with its fields filled in by 30_encoding.md R231 to R234. -/
theorem test_decode_alu :
    (reads 0xAA02B234#32 (.add 21#5 10#5 (.imm 0x1234#13)) &&
      reads 0xAA0A800D#32 (.and 21#5 10#5 (.reg 13#5)) &&
      reads 0xAA12B234#32 (.or 21#5 10#5 (.imm 0x1234#13)) &&
      reads 0xAA1A800D#32 (.xor 21#5 10#5 (.reg 13#5)) &&
      reads 0xAA22B234#32 (.sub 21#5 10#5 (.imm 0x1234#13)) &&
      reads 0xAA2A800D#32 (.andn 21#5 10#5 (.reg 13#5)) &&
      reads 0xAA32B234#32 (.orn 21#5 10#5 (.imm 0x1234#13)) &&
      reads 0xAA3A800D#32 (.xnor 21#5 10#5 (.reg 13#5)) &&
      reads 0xAA42B234#32 (.addx 21#5 10#5 (.imm 0x1234#13)) &&
      reads 0xAA52800D#32 (.umul 21#5 10#5 (.reg 13#5)) &&
      reads 0xAA5AB234#32 (.smul 21#5 10#5 (.imm 0x1234#13)) &&
      reads 0xAA62800D#32 (.subx 21#5 10#5 (.reg 13#5)) &&
      reads 0xAA72B234#32 (.udiv 21#5 10#5 (.imm 0x1234#13)) &&
      reads 0xAA7A800D#32 (.sdiv 21#5 10#5 (.reg 13#5))) = true := by
  decide

/-- Each word is the row of spec/opcode_table.json with its fields filled in by 30_encoding.md R231 to R234. -/
theorem test_decode_alu_cc :
    (reads 0xAA82B234#32 (.addcc 21#5 10#5 (.imm 0x1234#13)) &&
      reads 0xAA8A800D#32 (.andcc 21#5 10#5 (.reg 13#5)) &&
      reads 0xAA92B234#32 (.orcc 21#5 10#5 (.imm 0x1234#13)) &&
      reads 0xAA9A800D#32 (.xorcc 21#5 10#5 (.reg 13#5)) &&
      reads 0xAAA2B234#32 (.subcc 21#5 10#5 (.imm 0x1234#13)) &&
      reads 0xAAAA800D#32 (.andncc 21#5 10#5 (.reg 13#5)) &&
      reads 0xAAB2B234#32 (.orncc 21#5 10#5 (.imm 0x1234#13)) &&
      reads 0xAABA800D#32 (.xnorcc 21#5 10#5 (.reg 13#5)) &&
      reads 0xAAC2B234#32 (.addxcc 21#5 10#5 (.imm 0x1234#13)) &&
      reads 0xAAD2800D#32 (.umulcc 21#5 10#5 (.reg 13#5)) &&
      reads 0xAADAB234#32 (.smulcc 21#5 10#5 (.imm 0x1234#13)) &&
      reads 0xAAE2800D#32 (.subxcc 21#5 10#5 (.reg 13#5)) &&
      reads 0xAAF2B234#32 (.udivcc 21#5 10#5 (.imm 0x1234#13)) &&
      reads 0xAAFA800D#32 (.sdivcc 21#5 10#5 (.reg 13#5)) &&
      reads 0xAB02B234#32 (.taddcc 21#5 10#5 (.imm 0x1234#13)) &&
      reads 0xAB0A800D#32 (.tsubcc 21#5 10#5 (.reg 13#5)) &&
      reads 0xAB12B234#32 (.taddcctv 21#5 10#5 (.imm 0x1234#13)) &&
      reads 0xAB1A800D#32 (.tsubcctv 21#5 10#5 (.reg 13#5)) &&
      reads 0xAB22B234#32 (.mulscc 21#5 10#5 (.imm 0x1234#13))) = true := by
  decide

/-- Each word is the row of spec/opcode_table.json with its fields filled in by 30_encoding.md R231 to R234. -/
theorem test_decode_shifts_state_regs :
    (reads 0xAB2AA01D#32 (.sll 21#5 10#5 (.imm 29#5)) &&
      reads 0xAB32A01D#32 (.srl 21#5 10#5 (.imm 29#5)) &&
      reads 0xAB3AA01D#32 (.sra 21#5 10#5 (.imm 29#5)) &&
      reads 0x8143C000#32 (.stbar) &&
      reads 0xAB400000#32 (.rdy 21#5) &&
      reads 0xAB428000#32 (.rdasr 21#5 10#5) &&
      reads 0xAB480000#32 (.rdpsr 21#5) &&
      reads 0xAB500000#32 (.rdwim 21#5) &&
      reads 0xAB580000#32 (.rdtbr 21#5) &&
      reads 0x8182B234#32 (.wry 10#5 (.imm 0x1234#13)) &&
      reads 0xAB82800D#32 (.wrasr 21#5 10#5 (.reg 13#5)) &&
      reads 0x818AB234#32 (.wrpsr 10#5 (.imm 0x1234#13)) &&
      reads 0x8192800D#32 (.wrwim 10#5 (.reg 13#5)) &&
      reads 0x819AB234#32 (.wrtbr 10#5 (.imm 0x1234#13))) = true := by
  decide

/-- Each word is the row of spec/opcode_table.json with its fields filled in by 30_encoding.md R231 to R234. -/
theorem test_decode_fpops_a :
    (reads 0xABA0002D#32 (.fmovs 21#5 13#5) &&
      reads 0xABA000AD#32 (.fnegs 21#5 13#5) &&
      reads 0xABA0012D#32 (.fabss 21#5 13#5) &&
      reads 0xABA0052D#32 (.fsqrts 21#5 13#5) &&
      reads 0xABA0054D#32 (.fsqrtd 21#5 13#5) &&
      reads 0xABA0056D#32 (.fsqrtq 21#5 13#5) &&
      reads 0xABA2882D#32 (.fadds 21#5 10#5 13#5) &&
      reads 0xABA2884D#32 (.faddd 21#5 10#5 13#5) &&
      reads 0xABA2886D#32 (.faddq 21#5 10#5 13#5) &&
      reads 0xABA288AD#32 (.fsubs 21#5 10#5 13#5) &&
      reads 0xABA288CD#32 (.fsubd 21#5 10#5 13#5) &&
      reads 0xABA288ED#32 (.fsubq 21#5 10#5 13#5) &&
      reads 0xABA2892D#32 (.fmuls 21#5 10#5 13#5) &&
      reads 0xABA2894D#32 (.fmuld 21#5 10#5 13#5) &&
      reads 0xABA2896D#32 (.fmulq 21#5 10#5 13#5) &&
      reads 0xABA289AD#32 (.fdivs 21#5 10#5 13#5) &&
      reads 0xABA289CD#32 (.fdivd 21#5 10#5 13#5) &&
      reads 0xABA289ED#32 (.fdivq 21#5 10#5 13#5)) = true := by
  decide

/-- Each word is the row of spec/opcode_table.json with its fields filled in by 30_encoding.md R231 to R234. -/
theorem test_decode_fpops_b :
    (reads 0xABA28D2D#32 (.fsmuld 21#5 10#5 13#5) &&
      reads 0xABA28DCD#32 (.fdmulq 21#5 10#5 13#5) &&
      reads 0xABA0188D#32 (.fitos 21#5 13#5) &&
      reads 0xABA018CD#32 (.fdtos 21#5 13#5) &&
      reads 0xABA018ED#32 (.fqtos 21#5 13#5) &&
      reads 0xABA0190D#32 (.fitod 21#5 13#5) &&
      reads 0xABA0192D#32 (.fstod 21#5 13#5) &&
      reads 0xABA0196D#32 (.fqtod 21#5 13#5) &&
      reads 0xABA0198D#32 (.fitoq 21#5 13#5) &&
      reads 0xABA019AD#32 (.fstoq 21#5 13#5) &&
      reads 0xABA019CD#32 (.fdtoq 21#5 13#5) &&
      reads 0xABA01A2D#32 (.fstoi 21#5 13#5) &&
      reads 0xABA01A4D#32 (.fdtoi 21#5 13#5) &&
      reads 0xABA01A6D#32 (.fqtoi 21#5 13#5) &&
      reads 0x81AA8A2D#32 (.fcmps 10#5 13#5) &&
      reads 0x81AA8A4D#32 (.fcmpd 10#5 13#5) &&
      reads 0x81AA8A6D#32 (.fcmpq 10#5 13#5) &&
      reads 0x81AA8AAD#32 (.fcmpes 10#5 13#5) &&
      reads 0x81AA8ACD#32 (.fcmped 10#5 13#5) &&
      reads 0x81AA8AED#32 (.fcmpeq 10#5 13#5) &&
      reads 0xABA2BFED#32 (.fpop1Unassigned 21#5 10#5 0x1FF#9 13#5) &&
      reads 0xABAABFED#32 (.fpop2Unassigned 21#5 10#5 0x1FF#9 13#5) &&
      reads 0xABB2AAAD#32 (.cpop1 21#5 10#5 0x155#9 13#5) &&
      reads 0xABBAAAAD#32 (.cpop2 21#5 10#5 0x155#9 13#5)) = true := by
  decide

/-- Each word is the row of spec/opcode_table.json with its fields filled in by 30_encoding.md R231 to R234. -/
theorem test_decode_jumps_traps :
    (reads 0xABC2800D#32 (.jmpl 21#5 10#5 (.reg 13#5)) &&
      reads 0x81CAB234#32 (.rett 10#5 (.imm 0x1234#13)) &&
      reads 0x81D2800D#32 (.tn 10#5 (.reg 13#5)) &&
      reads 0x83D2A055#32 (.te 10#5 (.imm 0x55#7)) &&
      reads 0x85D2800D#32 (.tle 10#5 (.reg 13#5)) &&
      reads 0x87D2A055#32 (.tl 10#5 (.imm 0x55#7)) &&
      reads 0x89D2800D#32 (.tleu 10#5 (.reg 13#5)) &&
      reads 0x8BD2A055#32 (.tcs 10#5 (.imm 0x55#7)) &&
      reads 0x8DD2800D#32 (.tneg 10#5 (.reg 13#5)) &&
      reads 0x8FD2A055#32 (.tvs 10#5 (.imm 0x55#7)) &&
      reads 0x91D2800D#32 (.ta 10#5 (.reg 13#5)) &&
      reads 0x93D2A055#32 (.tne 10#5 (.imm 0x55#7)) &&
      reads 0x95D2800D#32 (.tg 10#5 (.reg 13#5)) &&
      reads 0x97D2A055#32 (.tge 10#5 (.imm 0x55#7)) &&
      reads 0x99D2800D#32 (.tgu 10#5 (.reg 13#5)) &&
      reads 0x9BD2A055#32 (.tcc 10#5 (.imm 0x55#7)) &&
      reads 0x9DD2800D#32 (.tpos 10#5 (.reg 13#5)) &&
      reads 0x9FD2A055#32 (.tvc 10#5 (.imm 0x55#7))) = true := by
  decide

/-- Each word is the row of spec/opcode_table.json with its fields filled in by 30_encoding.md R231 to R234. -/
theorem test_decode_misc :
    (reads 0x81DA800D#32 (.flush 10#5 (.reg 13#5)) &&
      reads 0xABE2B234#32 (.save 21#5 10#5 (.imm 0x1234#13)) &&
      reads 0xABEA800D#32 (.restore 21#5 10#5 (.reg 13#5)) &&
      reads 0x6BCDEF01#32 (.call 0x2BCDEF01#30) &&
      reads 0x002ABCDE#32 (.unimp 0x2ABCDE#22) &&
      reads 0x01000000#32 (.nop) &&
      reads 0x2B2ABCDE#32 (.sethi 21#5 0x2ABCDE#22)) = true := by
  decide

/-- Each word is the row of spec/opcode_table.json with its fields filled in by 30_encoding.md R231 to R234. -/
theorem test_decode_bicc :
    (reads 0x20AABCDE#32 (.bn true 0x2ABCDE#22) &&
      reads 0x22AABCDE#32 (.be true 0x2ABCDE#22) &&
      reads 0x24AABCDE#32 (.ble true 0x2ABCDE#22) &&
      reads 0x26AABCDE#32 (.bl true 0x2ABCDE#22) &&
      reads 0x28AABCDE#32 (.bleu true 0x2ABCDE#22) &&
      reads 0x2AAABCDE#32 (.bcs true 0x2ABCDE#22) &&
      reads 0x2CAABCDE#32 (.bneg true 0x2ABCDE#22) &&
      reads 0x2EAABCDE#32 (.bvs true 0x2ABCDE#22) &&
      reads 0x30AABCDE#32 (.ba true 0x2ABCDE#22) &&
      reads 0x32AABCDE#32 (.bne true 0x2ABCDE#22) &&
      reads 0x34AABCDE#32 (.bg true 0x2ABCDE#22) &&
      reads 0x36AABCDE#32 (.bge true 0x2ABCDE#22) &&
      reads 0x38AABCDE#32 (.bgu true 0x2ABCDE#22) &&
      reads 0x3AAABCDE#32 (.bcc true 0x2ABCDE#22) &&
      reads 0x3CAABCDE#32 (.bpos true 0x2ABCDE#22) &&
      reads 0x3EAABCDE#32 (.bvc true 0x2ABCDE#22)) = true := by
  decide

/-- Each word is the row of spec/opcode_table.json with its fields filled in by 30_encoding.md R231 to R234. -/
theorem test_decode_fbfcc :
    (reads 0x21AABCDE#32 (.fbn true 0x2ABCDE#22) &&
      reads 0x23AABCDE#32 (.fbne true 0x2ABCDE#22) &&
      reads 0x25AABCDE#32 (.fblg true 0x2ABCDE#22) &&
      reads 0x27AABCDE#32 (.fbul true 0x2ABCDE#22) &&
      reads 0x29AABCDE#32 (.fbl true 0x2ABCDE#22) &&
      reads 0x2BAABCDE#32 (.fbug true 0x2ABCDE#22) &&
      reads 0x2DAABCDE#32 (.fbg true 0x2ABCDE#22) &&
      reads 0x2FAABCDE#32 (.fbu true 0x2ABCDE#22) &&
      reads 0x31AABCDE#32 (.fba true 0x2ABCDE#22) &&
      reads 0x33AABCDE#32 (.fbe true 0x2ABCDE#22) &&
      reads 0x35AABCDE#32 (.fbue true 0x2ABCDE#22) &&
      reads 0x37AABCDE#32 (.fbge true 0x2ABCDE#22) &&
      reads 0x39AABCDE#32 (.fbuge true 0x2ABCDE#22) &&
      reads 0x3BAABCDE#32 (.fble true 0x2ABCDE#22) &&
      reads 0x3DAABCDE#32 (.fbule true 0x2ABCDE#22) &&
      reads 0x3FAABCDE#32 (.fbo true 0x2ABCDE#22)) = true := by
  decide

/-- Each word is the row of spec/opcode_table.json with its fields filled in by 30_encoding.md R231 to R234. -/
theorem test_decode_cbccc :
    (reads 0x21EABCDE#32 (.cbn true 0x2ABCDE#22) &&
      reads 0x23EABCDE#32 (.cb123 true 0x2ABCDE#22) &&
      reads 0x25EABCDE#32 (.cb12 true 0x2ABCDE#22) &&
      reads 0x27EABCDE#32 (.cb13 true 0x2ABCDE#22) &&
      reads 0x29EABCDE#32 (.cb1 true 0x2ABCDE#22) &&
      reads 0x2BEABCDE#32 (.cb23 true 0x2ABCDE#22) &&
      reads 0x2DEABCDE#32 (.cb2 true 0x2ABCDE#22) &&
      reads 0x2FEABCDE#32 (.cb3 true 0x2ABCDE#22) &&
      reads 0x31EABCDE#32 (.cba true 0x2ABCDE#22) &&
      reads 0x33EABCDE#32 (.cb0 true 0x2ABCDE#22) &&
      reads 0x35EABCDE#32 (.cb03 true 0x2ABCDE#22) &&
      reads 0x37EABCDE#32 (.cb02 true 0x2ABCDE#22) &&
      reads 0x39EABCDE#32 (.cb023 true 0x2ABCDE#22) &&
      reads 0x3BEABCDE#32 (.cb01 true 0x2ABCDE#22) &&
      reads 0x3DEABCDE#32 (.cb013 true 0x2ABCDE#22) &&
      reads 0x3FEABCDE#32 (.cb012 true 0x2ABCDE#22)) = true := by
  decide

/-- Each word is the row of spec/opcode_table.json with its fields filled in by 30_encoding.md R231 to R234. -/
theorem test_decode_unassigned :
    (reads 0x01400000#32 (.unassignedOp2 5#3) &&
      reads 0x81680000#32 (.unassignedOp3Arith 0x2D#6) &&
      reads 0xC1E00000#32 (.unassignedOp3Mem 0x3C#6)) = true := by
  decide

/-- Vectors T40, T41, T42, T43, T44, T45, T46, T47, T48, T49, T50, T51 of 95_test_vectors.md. -/
theorem test_logical_vectors :
    (alu 0x940A0009 0xF0F0F0F0 0xFF00FF00 0b0000#4 0xF000F000 0b0000#4 &&
      alu 0x948A0009 0xF0F0F0F0 0x0F0F0F0F 0b1011#4 0x00000000 0b0100#4 &&
      alu 0x942A0009 0xF0F0F0F0 0xFF00FF00 0b0000#4 0x00F000F0 0b0000#4 &&
      alu 0x94AA0009 0xFFFFFFFF 0x7FFFFFFF 0b0111#4 0x80000000 0b1000#4 &&
      alu 0x94120009 0xF0F0F0F0 0x0000FFFF 0b0000#4 0xF0F0FFFF 0b0000#4 &&
      alu 0x94920009 0x00000000 0x00000000 0b1011#4 0x00000000 0b0100#4 &&
      alu 0x94320009 0x00000000 0xFFFF0000 0b0000#4 0x0000FFFF 0b0000#4 &&
      alu 0x94B20009 0x00000001 0xFFFFFFFF 0b0000#4 0x00000001 0b0000#4 &&
      alu 0x941A0009 0xAAAAAAAA 0xFFFFFFFF 0b0000#4 0x55555555 0b0000#4 &&
      alu 0x949A0009 0x00000055 0x00000055 0b0011#4 0x00000000 0b0100#4 &&
      alu 0x943A0009 0xAAAAAAAA 0xFFFFFFFF 0b0000#4 0xAAAAAAAA 0b0000#4 &&
      alu 0x94BA0009 0x00000000 0x00000000 0b0000#4 0xFFFFFFFF 0b1000#4) = true := by
  decide

/-- Vectors T52, T53, T54, T55, T56, T57, T58, T59 of 95_test_vectors.md. -/
theorem test_shift_vectors :
    (alu 0x941A3FFF 0x00001234 0x00000000 0b0000#4 0xFFFFEDCB 0b0000#4 &&
      alu 0x952A0009 0x80000001 0x00000021 0b0000#4 0x00000002 0b0000#4 &&
      alu 0x952A201F 0x00000001 0x00000000 0b0000#4 0x80000000 0b0000#4 &&
      alu 0x95320009 0x80000000 0xFFFFFFFF 0b0000#4 0x00000001 0b0000#4 &&
      alu 0x953A0009 0x80000000 0x0000001F 0b0000#4 0xFFFFFFFF 0b0000#4 &&
      alu 0x953A0009 0x7FFFFFFF 0x0000001F 0b0000#4 0x00000000 0b0000#4 &&
      alu 0x95320009 0x12345678 0x00000020 0b0000#4 0x12345678 0b0000#4 &&
      alu 0x953A2004 0xFFFFFF00 0x00000000 0b0000#4 0xFFFFFFF0 0b0000#4) = true := by
  decide

/-- Vectors T62, T63, T64, T65, T66, T67, T68, T69 of 95_test_vectors.md. -/
theorem test_add_vectors :
    (alu 0x94820009 0x7FFFFFFF 0x00000001 0b0000#4 0x80000000 0b1010#4 &&
      alu 0x94820009 0xFFFFFFFF 0x00000001 0b0000#4 0x00000000 0b0101#4 &&
      alu 0x94820009 0x80000000 0x80000000 0b0000#4 0x00000000 0b0111#4 &&
      alu 0x94820009 0x00000000 0x00000000 0b0000#4 0x00000000 0b0100#4 &&
      alu 0x94020009 0xFFFFFFFF 0x00000001 0b1010#4 0x00000000 0b1010#4 &&
      alu 0x94420009 0x00000005 0x00000006 0b0001#4 0x0000000C 0b0001#4 &&
      alu 0x94C20009 0xFFFFFFFF 0x00000000 0b0001#4 0x00000000 0b0101#4 &&
      alu 0x94C20009 0x7FFFFFFF 0x00000000 0b0001#4 0x80000000 0b1010#4) = true := by
  decide

/-- Vectors T70, T71, T72, T73, T74, T76, T77, T78 of 95_test_vectors.md. -/
theorem test_subtract_vectors :
    (alu 0x94A20009 0x00000000 0x00000001 0b0000#4 0xFFFFFFFF 0b1001#4 &&
      alu 0x94A20009 0x80000000 0x00000001 0b0000#4 0x7FFFFFFF 0b0010#4 &&
      alu 0x94A20009 0x00000005 0x00000005 0b0000#4 0x00000000 0b0100#4 &&
      alu 0x94A20009 0x7FFFFFFF 0xFFFFFFFF 0b0000#4 0x80000000 0b1011#4 &&
      alu 0x94A23FFF 0x00000003 0x00000000 0b0000#4 0x00000004 0b0001#4 &&
      alu 0x94620009 0x0000000A 0x00000003 0b0001#4 0x00000006 0b0001#4 &&
      alu 0x94E20009 0x00000000 0x00000000 0b0001#4 0xFFFFFFFF 0b1001#4 &&
      alu 0x94E20009 0x80000000 0x00000000 0b0001#4 0x7FFFFFFF 0b0010#4) = true := by
  decide

/-- Vectors T79, T80, T81, T82, T84, T85, T86, T88 of 95_test_vectors.md. -/
theorem test_tagged_vectors :
    (alu 0x95020009 0x00000004 0x00000008 0b0000#4 0x0000000C 0b0000#4 &&
      alu 0x95020009 0x00000005 0x00000008 0b0000#4 0x0000000D 0b0010#4 &&
      alu 0x95020009 0x7FFFFFFC 0x00000004 0b0000#4 0x80000000 0b1010#4 &&
      alu 0x95120009 0x00000004 0x00000008 0b1111#4 0x0000000C 0b0000#4 &&
      alu 0x950A0009 0x00000008 0x00000004 0b0000#4 0x00000004 0b0000#4 &&
      alu 0x950A0009 0x00000008 0x00000003 0b0000#4 0x00000005 0b0010#4 &&
      alu 0x950A0009 0x00000004 0x00000008 0b0000#4 0xFFFFFFFC 0b1001#4 &&
      alu 0x951A0009 0x00000010 0x00000008 0b0000#4 0x00000008 0b0000#4) = true := by
  decide

/-- Vectors T94, T94a, T94b, T94c, T94d, T94e, T94f of 95_test_vectors.md. -/
theorem test_multiply_vectors :
    (mulDiv 0x94520009 0xFFFFFFFF 0xFFFFFFFF 0x00000000 0b0000#4 0x00000001 0xFFFFFFFE 0b0000#4 &&
      mulDiv 0x945A0009 0xFFFFFFFF 0xFFFFFFFF 0x00000055 0b0000#4 0x00000001 0x00000000 0b0000#4 &&
      mulDiv 0x94DA0009 0xFFFFFFFE 0x00000003 0x00000000 0b0011#4 0xFFFFFFFA 0xFFFFFFFF 0b1000#4 &&
      mulDiv 0x94D20009 0x00010000 0x00010000 0x00000000 0b1011#4 0x00000000 0x00000001 0b0100#4 &&
      mulDiv 0x94D22002 0x80000000 0x00000000 0x00000000 0b0000#4 0x00000000 0x00000001 0b0100#4 &&
      mulDiv 0x945A3FFF 0x80000000 0x00000000 0x00000000 0b0000#4 0x80000000 0x00000000 0b0000#4 &&
      mulDiv 0x94523FFF 0x80000000 0x00000000 0x00000000 0b0000#4 0x80000000 0x7FFFFFFF 0b0000#4) = true := by
  decide

/-- Vectors T75, T75a, T75b, T75c, T75d, T75f, T75g, T75h, T75j, T75k, T75l of 95_test_vectors.md. -/
theorem test_divide_vectors :
    (mulDiv 0x947A0009 0xFFFFFFFD 0x00000002 0xFFFFFFFF 0b0000#4 0xFFFFFFFF 0xFFFFFFFF 0b0000#4 &&
      mulDiv 0x947A0009 0x80000000 0xFFFFFFFF 0xFFFFFFFF 0b0000#4 0x7FFFFFFF 0xFFFFFFFF 0b0000#4 &&
      mulDiv 0x94FA0009 0xFFFFFFFF 0x00000002 0xFFFFFFFE 0b0000#4 0x80000000 0xFFFFFFFE 0b1000#4 &&
      mulDiv 0x94FA0009 0x00000000 0x00000002 0x00000001 0b0000#4 0x7FFFFFFF 0x00000001 0b0010#4 &&
      mulDiv 0x94FA3FFE 0x00000007 0x00000000 0x00000000 0b0000#4 0xFFFFFFFD 0x00000000 0b1000#4 &&
      mulDiv 0x94720009 0x00000064 0x00000007 0x00000000 0b0000#4 0x0000000E 0x00000000 0b0000#4 &&
      mulDiv 0x94720009 0x00000000 0x00000001 0x00000001 0b0000#4 0xFFFFFFFF 0x00000001 0b0000#4 &&
      mulDiv 0x94F20009 0x00000000 0x00000001 0x00000001 0b0000#4 0xFFFFFFFF 0x00000001 0b1010#4 &&
      mulDiv 0x94F20009 0xFFFFFFFF 0xFFFFFFFF 0x00000000 0b1111#4 0x00000001 0x00000000 0b0000#4 &&
      mulDiv 0x94F20009 0x00000003 0x00000004 0x00000000 0b1011#4 0x00000000 0x00000000 0b0100#4 &&
      mulDiv 0x94720009 0xFFFFFFFD 0x00000002 0xFFFFFFFF 0b0000#4 0xFFFFFFFF 0xFFFFFFFF 0b0000#4) = true := by
  decide


/-- Vectors T83, T87, T75e, T75i: tag_overflow and division_by_zero. -/
theorem test_arithmetic_traps :
    (after (start 15#4 [(8#5, 4#32), (9#5, 2#32), (10#5, 9#32)]) 0x95120009 (trapped 0x0A) &&
      after (start 4#4 [(8#5, 0x80000000#32), (9#5, 4#32)]) 0x951A0009 (trapped 0x0A) &&
      after (start 0#4 [(8#5, 1#32)]) 0x947A0009 (trapped 0x2A) &&
      after (start 0#4 [(8#5, 5#32)]) 0x94720009 (trapped 0x2A)) = true := by
  decide

/-- Vectors T60, T61 (SETHI, NOP). -/
theorem test_sethi_nop :
    (after (start 15#4 []) 0x033FFFFF (fun t => reg t 1#5 == 0xFFFFFC00#32 && t.psr.icc == bits4 15#4) &&
      after (start 15#4 []) 0x01000000 (fun t => reg t 1#5 == 0#32 && goesOn t)) = true := by
  decide

/-- Vectors T89 to T93: MULScc. -/
theorem test_multiply_step_vectors :
    let row (p y q : Word) (i : BitVec 4) (r z : Word) (j : BitVec 4) : Bool :=
      after (startWith (startPsr i true) y [(12#5, p), (9#5, q)]) 0x99230009 fun t =>
        reg t 12#5 == r && t.y == z && t.psr.icc == bits4 j
    (row 0x00000000 0x00000001 0x00000005 0b0000 0x00000005 0x00000000 0b0000 &&
      row 0x00000005 0x80000000 0x00000007 0b0000 0x00000002 0xC0000000 0b0000 &&
      row 0x00000003 0x00000003 0xFFFFFFFF 0b1000 0x80000000 0x80000001 0b1001 &&
      row 0x80000001 0x00000000 0x00000009 0b1010 0x40000000 0x80000000 0b0000 &&
      row 0xFFFFFFFE 0x00000001 0x00000002 0b0010 0x00000001 0x00000000 0b0001) = true := by
  decide

/-! ### Loads, stores, atomics -/

/-- %o0 to %o5 of B1 and B2. -/
def memStart : State :=
  start 0#4
    [(8#5, 0x2000#32), (9#5, 0x12345678#32), (10#5, 0xAAAAAAAA#32), (11#5, 0xBBBBBBBB#32),
      (12#5, 0x9ABCDEF0#32), (13#5, 0x0FEDCBA9#32)]

/-- A load leaves these values. -/
def loads (w : Nat) (xs : List (RegNum × Word)) : Bool :=
  after memStart w fun t => xs.all (fun x => reg t x.1 == x.2) && goesOn t

/-- A store leaves these words at 2000 and 2004 and these registers. -/
def stores (w : Nat) (v0 v1 : Word) (xs : List (RegNum × Word)) : Bool :=
  after memStart w fun t =>
    t.mem.read32 0x2000 == v0 && t.mem.read32 0x2004 == v1 && xs.all (fun x => reg t x.1 == x.2)
      && goesOn t

/-- Vectors T1 to T8, T13, T14. -/
theorem test_load_vectors :
    (loads 0xD44A2000 [(10#5, 0xFFFFFF80#32)] && loads 0xD40A2000 [(10#5, 0x80#32)] &&
      loads 0xD44A2007 [(10#5, 0xFFFFFFF7#32)] && loads 0xD4522002 [(10#5, 0xFFFFA2B3#32)] &&
      loads 0xD4122002 [(10#5, 0xA2B3#32)] && loads 0xD4522004 [(10#5, 0xFFFFC4D5#32)] &&
      loads 0xD4022004 [(10#5, 0xC4D5E6F7#32)] &&
      loads 0xD41A2000 [(10#5, 0x8091A2B3#32), (11#5, 0xC4D5E6F7#32)] && loads 0xC0022000 [(0#5, 0#32)] &&
      loads 0xD2820140 [(9#5, 0x8091A2B3#32)]) = true := by
  decide

/-- The alternate-space loads with the words of B2 (LDUBA, LDUHA, LDSBA, LDSHA, LDDA). -/
theorem test_alternate_load_vectors :
    (loads 0xD28A0140 [(9#5, 0x80#32)] && loads 0xD2920140 [(9#5, 0x8091#32)] &&
      loads 0xD2CA0140 [(9#5, 0xFFFFFF80#32)] && loads 0xD2D20140 [(9#5, 0xFFFF8091#32)] &&
      loads 0xD49A0160 [(10#5, 0x8091A2B3#32), (11#5, 0xC4D5E6F7#32)]) = true := by
  decide

/-- Vectors T9 to T12, T14a, T24 to T27, T32, T129: traps of loads and stores. -/
theorem test_load_store_traps :
    (after memStart 0xD4122001 (trapped 0x07) && after memStart 0xD4022002 (trapped 0x07) &&
      after memStart 0xD41A2004 (trapped 0x07) && after memStart 0xD21A2000 (trapped 0x02) &&
      after memStart 0xD2822000 (trapped 0x02) && after memStart 0xD2322001 (trapped 0x07) &&
      after memStart 0xD2222006 (trapped 0x07) && after memStart 0xD83A2004 (trapped 0x07) &&
      after memStart 0xDA3A2000 (trapped 0x02) && after memStart 0xD27A2002 (trapped 0x07) &&
      after memStart 0xD21A2004 (trapped 0x02)) = true := by
  decide

/-- Vectors T20 to T23, T28 to T31. -/
theorem test_store_vectors :
    (stores 0xD22A2001 0x8078A2B3#32 0xC4D5E6F7#32 [] && stores 0xD2322002 0x80915678#32 0xC4D5E6F7#32 [] &&
      stores 0xD2222004 0x8091A2B3#32 0x12345678#32 [] && stores 0xD83A2000 0x9ABCDEF0#32 0x0FEDCBA9#32 [] &&
      stores 0xC0222000 0#32 0xC4D5E6F7#32 [] &&
      stores 0xD26A2001 0x80FFA2B3#32 0xC4D5E6F7#32 [(9#5, 0x91#32)] &&
      stores 0xC06A2000 0xFF91A2B3#32 0xC4D5E6F7#32 [(0#5, 0#32), (9#5, 0x12345678#32)] &&
      stores 0xD27A2004 0x8091A2B3#32 0x12345678#32 [(9#5, 0xC4D5E6F7#32)]) = true := by
  decide

/-- The alternate-space stores and atomics with the words of B2 (STBA, STHA, STDA, LDSTUBA, SWAPA; STA with
the space 0xB). -/
theorem test_alternate_store_vectors :
    (stores 0xD2AA0140 0x7891A2B3#32 0xC4D5E6F7#32 [] && stores 0xD2B20140 0x5678A2B3#32 0xC4D5E6F7#32 [] &&
      stores 0xD2A20160 0x12345678#32 0xC4D5E6F7#32 [] &&
      stores 0xD4BA0160 0xAAAAAAAA#32 0xBBBBBBBB#32 [] &&
      stores 0xD2EA0160 0xFF91A2B3#32 0xC4D5E6F7#32 [(9#5, 0x80#32)] &&
      stores 0xD2FA0160 0x12345678#32 0xC4D5E6F7#32 [(9#5, 0x8091A2B3#32)]) = true := by
  decide

/-- Vectors T135 to T138: the source is also the destination. -/
theorem test_source_is_destination :
    (after (start 0#4 [(1#5, 0x2000#32)]) 0xC2004000 (fun t => reg t 1#5 == 0x8091A2B3#32) &&
      after (start 0#4 [(8#5, 0x2000#32)]) 0xD01A0000
        (fun t => reg t 8#5 == 0x8091A2B3#32 && reg t 9#5 == 0xC4D5E6F7#32) &&
      after (start 0#4 [(1#5, 0x2000#32)]) 0xC2784000
        (fun t => reg t 1#5 == 0x8091A2B3#32 && t.mem.read32 0x2000 == 0x2000#32) &&
      after (start 0#4 [(15#5, 0x4000#32)]) 0x9FC3E008
        (fun t => reg t 15#5 == 0x1000#32 && t.pc == 0x1004#32 && t.npc == 0x4008#32) &&
      after (start 0#4 [(1#5, 5#32)]) 0x82004001 (fun t => reg t 1#5 == 10#32)) = true := by
  decide

/-- Vectors T14, T14a, T119a, T130: privileged instructions in user mode. -/
theorem test_user_mode_traps :
    let user := startWith { startPsr 0#4 true with s := false } 0#32 []
    let trap3 (w : Nat) : Bool := after user w fun t => tbrWord t == 0x4030#32 && t.psr.s && !t.psr.ps
    (trap3 0xD2820140 && trap3 0xD2822000 && trap3 0x91480000) = true := by
  decide

/-! ### Control transfer -/

/-- One row of B6: the condition holds for the icc 0 to 15 with a 1, from the left. -/
def bicc (cond : BitVec 4) (row : BitVec 16) : Bool :=
  (List.range 16).all fun k => iccTest (bits4 (BitVec.ofNat 4 k)) cond == row.getLsbD (15 - k)

/-- One entry of B6 for FBfcc, from fcc 0 on the left, or of 42_control_transfer.md R521. -/
def fbfcc4 (f : BitVec 2 → BitVec 4 → Bool) (cond : BitVec 4) (row : BitVec 4) : Bool :=
  (List.range 4).all fun k => f (BitVec.ofNat 2 k) cond == row.getLsbD (3 - k)

/-- The table of B6. -/
theorem test_icc_conditions :
    (bicc 0 0b0000000000000000 && bicc 1 0b0000111100001111 && bicc 2 0b0011111111001111 &&
      bicc 3 0b0011001111001100 && bicc 4 0b0101111101011111 && bicc 5 0b0101010101010101 &&
      bicc 6 0b0000000011111111 && bicc 7 0b0011001100110011 && bicc 8 0b1111111111111111 &&
      bicc 9 0b1111000011110000 && bicc 10 0b1100000000110000 && bicc 11 0b1100110000110011 &&
      bicc 12 0b1010000010100000 && bicc 13 0b1010101010101010 && bicc 14 0b1111111100000000 &&
      bicc 15 0b1100110011001100) = true := by
  decide

/-- The list of FBfcc conditions in B6. -/
theorem test_fcc_conditions :
    let row := fbfcc4 fccTest
    (row 0 0b0000 && row 1 0b0111 && row 2 0b0110 && row 3 0b0101 && row 4 0b0100 && row 5 0b0011 &&
      row 6 0b0010 && row 7 0b0001 && row 8 0b1111 && row 9 0b1000 && row 10 0b1001 && row 11 0b1010 &&
      row 12 0b1011 && row 13 0b1100 && row 14 0b1101 && row 15 0b1110) = true := by
  decide

/-- The CBccc conditions of 42_control_transfer.md R521. -/
theorem test_cp_conditions :
    let row := fbfcc4 cpTest
    (row 0 0b0000 && row 1 0b0111 && row 2 0b0110 && row 3 0b0101 && row 4 0b0100 && row 5 0b0011 &&
      row 6 0b0010 && row 7 0b0001 && row 8 0b1111 && row 9 0b1000 && row 10 0b1001 && row 11 0b1010 &&
      row 12 0b1011 && row 13 0b1100 && row 14 0b1101 && row 15 0b1110) = true := by
  decide

/-- The program counters and annul after a step. -/
def goesTo (s : State) (w : Nat) (pc npc : Word) (annul : Bool) : Bool :=
  after s w fun t => t.pc == pc && t.npc == npc && t.annul == annul

/-- Vectors T104 to T108 at 1000. -/
theorem test_branch_vectors :
    (goesTo (start 0#4 []) 0x12800008 0x1004#32 0x1020#32 false &&
      goesTo (start 4#4 []) 0x12800008 0x1004#32 0x1008#32 false &&
      goesTo (start 4#4 []) 0x32800008 0x1004#32 0x1008#32 true &&
      goesTo (start 0#4 []) 0x32800008 0x1004#32 0x1020#32 false &&
      goesTo (start 0#4 []) 0x30BFFFF8 0x1004#32 0xFE0#32 true &&
      goesTo (start 0#4 []) 0x20800000 0x1004#32 0x1008#32 true &&
      goesTo (start 0#4 []) 0x23BFFFFE 0x1004#32 0x1008#32 true &&
      after (start 0#4 []) 0x03C00002 (trapped 0x24)) = true := by
  decide

/-- An annulled word is skipped, whatever it is (vector T106). -/
theorem test_annulled_skipped :
    (match step { start 0#4 [] with annul := true } with
      | .next t => goesOn t && !t.annul
      | _ => false) = true := by
  decide

/-- Vectors T109 to T109c at 1000. -/
theorem test_call_jmpl_vectors :
    (after (start 0#4 []) 0x4000000E
        (fun t => reg t 15#5 == 0x1000#32 && t.pc == 0x1004#32 && t.npc == 0x1038#32) &&
      after (start 0#4 []) 0x7FFFFFFF (fun t => reg t 15#5 == 0x1000#32 && t.npc == 0xFFC#32) &&
      after (start 0#4 [(1#5, 0x3000#32), (2#5, 0x10#32)]) 0x9FC04002
        (fun t => reg t 15#5 == 0x1000#32 && t.pc == 0x1004#32 && t.npc == 0x3010#32) &&
      after (start 0#4 [(1#5, 0x3000#32), (2#5, 2#32)]) 0x9FC04002 (trapped 0x07)) = true := by
  decide

/-- Vectors T109d to T109g. -/
theorem test_save_restore_vectors :
    let wim (v : Word) (xs : List (RegNum × Word)) : State := { start 0#4 xs with wim := v }
    (after (wim 2#32 [(14#5, 0x2000#32)]) 0x9DE3BFA0
        (fun t => t.psr.cwp == 2#5 && reg t 14#5 == 0x1FA0#32 && reg t 30#5 == 0x2000#32) &&
      after { start 0#4 [] with psr := { startPsr 0#4 true with cwp := 0#5 } } 0x81E00000
        (fun t => t.psr.cwp == 7#5) &&
      after (wim 0x10#32 [(8#5, 7#32)]) 0x93EA2005 (trapped 0x06) &&
      after (wim 4#32 []) 0x9DE3BFA0 (trapped 0x05) &&
      after (wim 1#32 [(8#5, 7#32)]) 0x93EA2005
        (fun t => t.psr.cwp == 4#5 && reg t 9#5 == 12#32 && regIn t 3#5 25#5 == 12#32)) = true := by
  decide

/-- Vectors T109h to T109k, T109m, T122 at 1000. -/
theorem test_ticc_vectors :
    let off : State := startWith { startPsr 0#4 true with et := false } 0#32 []
    (after (start 0#4 []) 0x93D02010 (trapped 0x90) && after (start 4#4 []) 0x93D02010 goesOn &&
      after (start 0#4 [(1#5, 0xFFFFFFFF#32), (2#5, 0x200#32)]) 0x91D04002 (trapped 0xFF) &&
      after (start 0#4 []) 0x81D02000 goesOn && after (start 0#4 []) 0x91D02003 (trapped 0x83) &&
      after off 0x91D02001 (fun t => t.mode == .error && t.pbError && t.pc == 0x1000#32 &&
        t.npc == 0x1004#32 && tbrWord t == 0x4000#32 && t.psr == off.psr)) = true := by
  decide

/-- Vectors T111 to T117: RETT in the delay slot of a JMPL. -/
theorem test_rett_vectors :
    let at2 (et s ps : Bool) (wim target : Word) (f : State → Bool) : Bool :=
      after
        (withRegs
          { State.reset with
            pc := 0x4104#32, npc := 0x1004#32, wim := wim, tbr := ⟨4#20, 0#8⟩
            psr := ⟨bits4 0#4, false, false, 0#4, s, ps, et, 2#5⟩ }
          [(18#5, target)]) 0x81CCA000 f
    let error (tt : BitVec 8) (t : State) : Bool :=
      t.mode == .error && t.tbr.tt == tt && t.psr.cwp == 2#5 && t.pc == 0x4104#32
    let returns (s : Bool) (t : State) : Bool :=
      t.pc == 0x1004#32 && t.npc == 0x1008#32 && t.psr.et && t.psr.s == s && t.psr.cwp == 3#5
    (at2 false true true 0#32 0x1008#32 (returns true) &&
      at2 false true false 0#32 0x1008#32 (returns false) &&
      at2 true true true 0#32 0x1008#32
        (fun t => t.tbr.tt == 0x02#8 && t.psr.cwp == 1#5 && reg t 17#5 == 0x4104#32 &&
          reg t 18#5 == 0x1004#32) &&
      at2 true false false 0#32 0x1008#32 (fun t => t.tbr.tt == 0x03#8) &&
      at2 false true true 8#32 0x1008#32 (error 0x06#8) &&
      at2 false true true 0#32 0x100A#32 (error 0x07#8) &&
      at2 false false true 0#32 0x1008#32 (error 0x03#8)) = true := by
  decide

/-! ### State registers, STBAR, UNIMP, FLUSH -/

/-- Vectors T118, T119, T119c to T119e: the delayed write of each register. -/
theorem test_write_state_vectors :
    let queued (r : StateReg) (v : Word) (t : State) : Bool := t.pending == [⟨r, v, 4⟩] && goesOn t
    (after (start 0#4 [(16#5, 0x004010A3#32)]) 0x818C2020 (queued .psr 0x00401083#32) &&
      after (start 0#4 []) 0x81882088 (trapped 0x02) &&
      after (start 0#4 []) 0x81902002 (queued .wim 2#32) &&
      after (start 0#4 [(17#5, 0x40000FFF#32)]) 0x819C4000 (queued .tbr 0x40000FFF#32) &&
      after (start 0#4 [(8#5, 6#32)]) 0x81822005 (queued .y 3#32) &&
      after (start 0#4 []) 0xA1802001 (trapped 0x02)) = true := by
  decide

/-- Vectors A6, T118, T119c, T119d: what the write puts into its register. -/
theorem test_commit_vectors :
    let s := { start 0#4 [] with tbr := ⟨4#20, 5#8⟩ }
    (psrWord (commit { s with cfg := { s.cfg with cpPresent := true } } ⟨.psr, 0x00F01F87#32, 1⟩)
        == 0x00F01F87#32 &&
      wimWord (commit s ⟨.wim, 0xFFFFFFFF#32, 1⟩) == 0xFF#32 &&
      tbrWord (commit s ⟨.tbr, 0x40000FFF#32, 1⟩) == 0x40000050#32 &&
      (commit s ⟨.y, 3#32, 1⟩).y == 3#32) = true := by
  decide

/-- Vectors T119b, T119e, T119f, T119k, T119l, T119h. -/
theorem test_read_state_vectors :
    let s : State :=
      { startWith ⟨bits4 15#4, false, true, 15#4, true, false, true, 7#5⟩ 9#32 [] with
        wim := 0x1FF#32 }
    (after s 0x91480000 (fun t => reg t 8#5 == 0x00F01FA7#32) &&
      after s 0x83400000 (fun t => reg t 1#5 == 9#32) && after s 0x83444000 (fun t => t.tbr.tt == 0x02#8) &&
      after s 0xA9580000 (fun t => reg t 20#5 == 0x4000#32) &&
      after s 0xA7500000 (fun t => reg t 19#5 == 0xFF#32) &&
      after s 0x8143C000 (fun t => goesOn t && t.storeBarrierPending)) = true := by
  decide

/-- An implemented ASR is read and written; ASR 5 takes a write without effect (43_state_regs_misc.md R561,
R571). -/
theorem test_asr :
    let s : State :=
      { start 0#4 [] with
        cfg := { asrImplemented := 2#16 }, asr := Vector.replicate 16 7#32 }
    (after s 0x83444000 (fun t => reg t 1#5 == 7#32) &&
      after s 0xA3802001 (fun t => t.pending == [⟨.asr 1, 1#32, 4⟩]) &&
      after s 0x8B802001 (fun t => t.pending == [] && goesOn t)) = true := by
  decide

/-- Vectors T119i, T119j, and the words of no instruction. -/
theorem test_misc_vectors :
    (after (start 0#4 []) 0x00001234 (trapped 0x02) && after (start 0#4 [(24#5, 0x3000#32)]) 0x81DE200C goesOn &&
      after { start 0#4 [] with cfg := { flushImpl := .trapsUnimplementedFlush } } 0x81DE200C
        (trapped 0x25) &&
      after (start 0#4 []) 0x00400000 (trapped 0x02) && after (start 0#4 []) 0x80480000 (trapped 0x02) &&
      after (start 0#4 []) 0xC0400000 (trapped 0x02)) = true := by
  decide

/-! ### Floating point -/

/-- The start state of B9 with RD, TEM and these f registers. -/
def fpStart (rd : BitVec 2) (tem : BitVec 5) (xs : List (RegNum × Word)) : State :=
  xs.foldl (fun s x => setFreg s x.1 x.2)
    { start 0#4 [] with fsr := ⟨rd, tem, false, 0#3, 0#2, 0#5, 0#5⟩ }

/-- A row of B9 without a trap: the f registers after it, cexc and aexc. -/
def fp (rd : BitVec 2) (w : Nat) (xs ys : List (RegNum × Word)) (texc : BitVec 5) : Bool :=
  after (fpStart rd 0#5 xs) w fun t =>
    ys.all (fun y => freg t y.1 == y.2) && t.fsr.cexc == texc && t.fsr.aexc == texc && goesOn t

/-- A row of B9 that traps: ftt and cexc; aexc and f[12] are unchanged. -/
def fpTraps (tem : BitVec 5) (w : Nat) (xs : List (RegNum × Word)) (ftt : BitVec 3) (cexc : BitVec 5) :
    Bool :=
  after (fpStart 0#2 tem xs) w fun t =>
    trapped 0x08 t && t.fsr.ftt == ftt && t.fsr.cexc == cexc && t.fsr.aexc == 0#5 && freg t 12#5 == 0#32

/-- Vectors T95 to T95d, T96. -/
theorem test_float_add_vectors :
    let add (rd : BitVec 2) (a b r : Word) (x : BitVec 5) : Bool :=
      fp rd 0x99A10828 [(4#5, a), (8#5, b)] [(12#5, r)] x
    (add 0 0x3F800000 0x40000000 0x40400000 0 && add 0 0x3FC00000 0xBFC00000 0 0 &&
      add 3 0x3FC00000 0xBFC00000 0x80000000 0 && add 0 0x4B800000 0x3F800000 0x4B800000 1 &&
      add 2 0x4B800000 0x3F800000 0x4B800001 1 && add 0 0x4B800000 0x40400000 0x4B800002 1 &&
      add 0 0x7F7FFFFF 0x7F7FFFFF 0x7F800000 9 && add 1 0x7F7FFFFF 0x7F7FFFFF 0x7F7FFFFF 9 &&
      fp 0 0x99A108A8 [(4#5, 0x7F800000), (8#5, 0x7F800000)] [(12#5, 0x7FFFFFFF)] 16) = true := by
  decide

/-- Vectors T97 to T98c. -/
theorem test_float_multiply_divide_vectors :
    let op (w : Nat) (rd : BitVec 2) (a b r : Word) (x : BitVec 5) : Bool :=
      fp rd w [(4#5, a), (8#5, b)] [(12#5, r)] x
    let div := op 0x99A109A8
    let mul := op 0x99A10928
    (div 0 0x3F800000 0x40400000 0x3EAAAAAB 1 && div 1 0x3F800000 0x40400000 0x3EAAAAAA 1 &&
      div 0 0x3F800000 0 0x7F800000 2 && div 0 0 0 0x7FFFFFFF 16 && mul 0 0x40400000 0x3F000000 0x3FC00000 0 &&
      mul 0 0x00800000 0x3F000000 0x00400000 0 && mul 0 0x3F800001 0x3F800001 0x3F800002 1 &&
      fp 0 0x99A10D28 [(4#5, 0x3F800001), (8#5, 0x3F800001)] [(12#5, 0x3FF00000), (13#5, 0x40000040)] 0)
      = true := by
  decide

/-- Vectors T99 to T99b. -/
theorem test_float_sqrt_vectors :
    let sqrt (a r : Word) (x : BitVec 5) : Bool := fp 0 0x91A00524 [(4#5, a)] [(8#5, r)] x
    (sqrt 0x40800000 0x40000000 0 && sqrt 0x40000000 0x3FB504F3 1 && sqrt 0xBF800000 0x7FFFFFFF 16 &&
      sqrt 0x80000000 0x80000000 0) = true := by
  decide +kernel

/-- Vectors T100 to T102c. -/
theorem test_float_convert_vectors :
    let op (w : Nat) (xs ys : List (RegNum × Word)) (x : BitVec 5) : Bool := fp 0 w xs ys x
    (op 0x91A01884 [(4#5, 0x01000001)] [(8#5, 0x4B800000)] 1 &&
      op 0x91A01904 [(4#5, 0x01000001)] [(8#5, 0x41700000), (9#5, 0x10000000)] 0 &&
      op 0x91A01884 [(4#5, 0xFFFFFFFF)] [(8#5, 0xBF800000)] 0 &&
      op 0x91A01A24 [(4#5, 0x40300000)] [(8#5, 2)] 1 && op 0x91A01A24 [(4#5, 0xC0300000)] [(8#5, 0xFFFFFFFE)] 1 &&
      op 0x91A01A24 [(4#5, 0x4F000000)] [(8#5, 0x7FFFFFFF)] 16 &&
      op 0x91A01A24 [(4#5, 0xCF000000)] [(8#5, 0x80000000)] 0 &&
      op 0x91A01A44 [(4#5, 0xBFF80000)] [(8#5, 0xFFFFFFFF)] 1 &&
      op 0x91A01924 [(4#5, 0x3FC00000)] [(8#5, 0x3FF80000), (9#5, 0)] 0 &&
      op 0x91A018C4 [(4#5, 0x3FB99999), (5#5, 0x9999999A)] [(8#5, 0x3DCCCCCD)] 1 &&
      op 0x91A018C4 [(4#5, 0x7E37E43C), (5#5, 0x8800759C)] [(8#5, 0x7F800000)] 9 &&
      op 0x91A018C4 [(4#5, 0x7FF00000), (5#5, 1)] [(8#5, 0x7FC00000)] 16) = true := by
  decide

/-- Vectors T103 to T103c, fcc; T103d. -/
theorem test_float_compare_move_vectors :
    let cmp (w : Nat) (a b : Word) (fcc : BitVec 2) (x : BitVec 5) : Bool :=
      after (fpStart 0 0 [(4#5, a), (8#5, b)]) w fun t => t.fsr.fcc == fcc && t.fsr.cexc == x
    (cmp 0x81A90A28 0x3F800000 0x40000000 1 0 && cmp 0x81A90A28 0x80000000 0 0 0 &&
      cmp 0x81A90A28 0x7FC00000 0x3F800000 3 0 && cmp 0x81A90AA8 0x7FC00000 0x3F800000 3 16 &&
      cmp 0x81A90A28 0x7F800001 0x3F800000 3 16 &&
      fp 0 0x91A00024 [(4#5, 0x7F800001)] [(8#5, 0x7F800001)] 0 &&
      fp 0 0x91A000A4 [(4#5, 0x7F800001)] [(8#5, 0xFF800001)] 0 &&
      fp 0 0x91A00124 [(4#5, 0xFF800001)] [(8#5, 0x7F800001)] 0) = true := by
  decide

/-- Vector T103e, and 1 + 1 = 2 in the quad format of 10_state.md R51. -/
theorem test_float_double_quad :
    let one : List (RegNum × Word) := [(4#5, 0x3FFF0000), (8#5, 0x3FFF0000)]
    (fp 0 0x99A10848 [(4#5, 0x3FF00000), (8#5, 0x3CA00000)] [(12#5, 0x3FF00000), (13#5, 0)] 1 &&
      fp 0 0x99A10848 [(4#5, 0x3FF00000), (8#5, 0x3CA00000), (9#5, 0x02000000)]
        [(12#5, 0x3FF00000), (13#5, 1)] 1 &&
      fp 0 0x99A10868 one [(12#5, 0x40000000), (13#5, 0), (14#5, 0), (15#5, 0)] 0 &&
      fp 0 0x91A01984 [(4#5, 0xFFFFFFFF)] [(8#5, 0xBFFF0000), (9#5, 0), (10#5, 0), (11#5, 0)] 0) = true := by
  decide

/-- Vectors T95d, T96, T98a, T103b, T103f to T103i with their traps. -/
theorem test_float_trap_vectors :
    (fpTraps 0x08 0x99A10828 [(4#5, 0x7F7FFFFF), (8#5, 0x7F7FFFFF)] 1 0x08 &&
      fpTraps 0x10 0x99A108A8 [(4#5, 0x7F800000), (8#5, 0x7F800000)] 1 0x10 &&
      fpTraps 0x04 0x99A10928 [(4#5, 0x00800000), (8#5, 0x3F000000)] 1 0x04 &&
      fpTraps 0x10 0x81A90AA8 [(4#5, 0x7FC00000), (8#5, 0x3F800000)] 1 0x10 &&
      fpTraps 0 0x99A14848 [] 6 0 && fpTraps 0 0x81A00000 [] 3 0 &&
      after (startWith (startPsr 0#4 false) 0#32 []) 0x99A10828 (trapped 0x04) &&
      after (start 0#4 []) 0x87B040A2 (trapped 0x24)) = true := by
  decide

/-- Vectors T33 to T35, T38, T39, T131. -/
theorem test_float_load_vectors :
    let off : State := startWith (startPsr 0#4 false) 0#32 [(8#5, 0x2000#32)]
    (after off 0xC3022000 (trapped 0x04) && after off 0xC3022002 (trapped 0x04) &&
      after memStart 0xC51A2000 (fun t => freg t 2#5 == 0x8091A2B3#32 && freg t 3#5 == 0xC4D5E6F7#32) &&
      after memStart 0xC71A2000 (fun t => trapped 0x08 t && t.fsr.ftt == 6#3) &&
      after off 0xC3822000 (trapped 0x24) &&
      after memStart 0xC1322000 (fun t => trapped 0x08 t && t.fsr.ftt == 4#3)) = true := by
  decide

/-- Vector T37: what LDFSR loads, and the image STFSR stores. -/
theorem test_fsr_vector :
    let f := loadFsr {} ⟨0#2, 0#5, false, 0#3, 0#2, 0#5, 0#5⟩ 0xCFCE2C21#32
    (fsrWord { State.reset with fsr := f } == 0xCF800C21#32 &&
      after { memStart with fsr := { f with ftt := 5#3 } } 0xC12A2004
        (fun t => t.mem.read32 0x2004 == 0xCF814C21#32 && t.fsr.ftt == 0#3)) = true := by
  decide

/-! ### Interrupts and reset -/

/-- A step with these inputs. -/
def stepWith (s : State) (x : Inputs) (f : State → Bool) : Bool :=
  match step { s with inputs := [x] } with
  | .next t => f t
  | _ => false

/-- A step that runs this word with these inputs. -/
def afterWith (s : State) (w : Nat) (x : Inputs) (f : State → Bool) : Bool := stepWith (s.withFetchWord 32 w) x f

/-- With a queue the FPU takes an FPop on; it ends it when it may, or when a store needs its result
(10_state.md R75, R76; 1 + 2 = 3 of vector T95). -/
theorem test_queued_result :
    let s : State := { fpStart 0 0 [(4#5, 0x3F800000), (8#5, 0x40000000)] with cfg := { fqPresent := true } }
    let work : FpWork := ⟨.add .single, 12#5, 4#5, 8#5, true, ⟨0x1000#32, 0x99A10828#32⟩⟩
    let busy := withRegs { s with fpuQueue := [work] } [(8#5, 0x2000#32)]
    (after s 0x99A10828 (fun t => t.fpuQueue == [work] && freg t 12#5 == 0#32 && goesOn t) &&
      afterWith busy 0x01000000 { Inputs.quiet with fpuEnds := 1 }
        (fun t => t.fpuQueue == [] && freg t 12#5 == 0x40400000#32) &&
      after busy 0xDD222004 (fun t => t.fpuQueue == [work]) &&
      after busy 0xD9222004 (fun t => t.fpuQueue == [] && t.mem.read32 0x2004 == 0x40400000#32)) = true := by
  decide

/-- A deferred exception waits with its FPop, the next floating-point instruction takes it and loads the FQ, and
STDFQ empties the queue (10_state.md R76; 60_exceptions.md R755). -/
theorem test_deferred_exception :
    let s : State := { fpStart 0 0 [] with cfg := { fqPresent := true } }
    let work : FpWork := ⟨.unassigned false, 0#5, 0#5, 0#5, true, ⟨0x1000#32, 0x81A00000#32⟩⟩
    let busy : State := { s with fpuQueue := [work] }
    let ends : Inputs := { Inputs.quiet with fpuEnds := 1 }
    let s1 : State := { s with fpuMode := .exception, fq := [work.entry] }
    (after s 0x81A00000 (fun t => t.fpuQueue == [work] && t.fpuMode == .execute && goesOn t) &&
      afterWith busy 0x01000000 ends
        (fun t => goesOn t && t.fpuMode == .pending ⟨3#3, none⟩ && t.fpuQueue == [work] && t.fq == []) &&
      afterWith busy 0x91A00024 ends
        (fun t => trapped 0x08 t && t.fpuMode == .exception && t.fq == [work.entry] && t.fpuQueue == [] &&
          t.fsr.ftt == 3#3) &&
      after (withRegs s1 [(8#5, 0x2000#32)]) 0xC1322000
        (fun t => t.mem.read32 0x2000 == 0x1000#32 && t.mem.read32 0x2004 == 0x81A00000#32 &&
          t.fpuMode == .execute && t.fq == [])) = true := by
  decide

/-- With a queue an FPop that the FPU does not implement is taken on with its registers: a store of its result
waits for it and takes its unimplemented_FPop; without a queue it traps at once (44_fpop.md R603;
70_reset_and_hazards.md R830). -/
theorem test_unimplemented_fpop :
    let c : Config := { unimplemented := [(0xFFFFFFFF#32, 0x99A10828#32)] }
    let s : State := { memStart with cfg := { c with fqPresent := true } }
    let work : FpWork := ⟨.add .single, 12#5, 4#5, 8#5, false, ⟨0x1000#32, 0x99A10828#32⟩⟩
    let busy : State := { s with fpuQueue := [work] }
    (after { memStart with cfg := c } 0x99A10828 (fun t => trapped 0x08 t && t.fsr.ftt == 3#3) &&
      after s 0x99A10828 (fun t => t.fpuQueue == [work] && goesOn t) &&
      after busy 0xDD222004 (fun t => t.fpuQueue == [work] && goesOn t) &&
      after busy 0xD9222004 (fun t => trapped 0x08 t && t.fsr.ftt == 3#3 && t.fq == [work.entry])) = true := by
  decide

/-- The access exception on the second word of a doubleword: LDD has changed the even register and STD stored the
first word; on the write half of SWAP nothing is changed (40_load_store.md R330, R349, R375). -/
theorem test_second_access_exception :
    let x : Inputs := { Inputs.quiet with machineCheck := some (.dataAccessException true) }
    (afterWith memStart 0xD41A2000 x
        (fun t => t.tbr.tt == 0x09#8 && regIn t 3#5 10#5 == 0x8091A2B3#32 && regIn t 3#5 11#5 == 0xBBBBBBBB#32) &&
      afterWith memStart 0xD83A2000 x
        (fun t => t.tbr.tt == 0x09#8 && t.mem.read32 0x2000 == 0x9ABCDEF0#32 &&
          t.mem.read32 0x2004 == 0xC4D5E6F7#32) &&
      afterWith memStart 0xD27A2004 x
        (fun t => t.tbr.tt == 0x09#8 && regIn t 3#5 9#5 == 0x12345678#32 &&
          t.mem.read32 0x2004 == 0xC4D5E6F7#32)) = true := by
  decide

/-- I/O locations at 3000: a byte load delivers the low byte of the environment's word, a halfword store hands
over the low halfword (20_memory.md R121; log 39). -/
theorem test_io :
    let s : State :=
      { start 0#4 [(8#5, 0x3000#32), (9#5, 0x12345678#32)] with
        cfg := { memoryMap := [⟨[], 0x3000, 16, .io⟩, ⟨[], 0, 0x10000, .realMemory⟩] } }
    (afterWith s 0xD40A2001 { Inputs.quiet with io := some ⟨0#32, 0xABCDEF99#32, 0#32⟩ }
        (fun t => reg t 10#5 == 0x99#32 && t.ioTrace == [⟨false, 0x0B#8, 0x3001, .byte, 0x99#32⟩]) &&
      after s 0xD2322002 (fun t => t.ioTrace == [⟨true, 0x0B#8, 0x3002, .half, 0x5678#32⟩] && goesOn t)) = true := by
  decide

/-- A watchpoint comes before ADD and FADDs, and behind RDPSR in user mode, FADDs with EF = 0 and an unimplemented
FLUSH (60_exceptions.md R705). -/
theorem test_watchpoint :
    let user := startWith { startPsr 0#4 true with s := false } 0#32 []
    let x : Inputs := { Inputs.quiet with machineCheck := some .watchpointDetected }
    (afterWith user 0x82004001 x (fun t => t.tbr.tt == 0x0B#8) &&
      afterWith user 0x99A10828 x (fun t => t.tbr.tt == 0x0B#8) &&
      afterWith user 0x91480000 x (fun t => t.tbr.tt == 0x03#8) &&
      afterWith (startWith (startPsr 0#4 false) 0#32 []) 0x99A10828 x (fun t => t.tbr.tt == 0x04#8) &&
      afterWith { user with cfg := { flushImpl := .trapsUnimplementedFlush } } 0x81DE200C x
        (fun t => t.tbr.tt == 0x25#8)) = true := by
  decide

/-- Vectors T123 to T127. -/
theorem test_interrupt_vectors :
    let s (pil : BitVec 4) (et : Bool) : State :=
      startWith { startPsr 0#4 true with pil := pil, et := et, cwp := 4#5 } 0#32 []
    let irl (n : BitVec 4) : Inputs := { Inputs.quiet with irl := n }
    let nop (s : State) : State := s.withFetchWord 32 0x01000000
    (stepWith (nop (s 5 true)) (irl 5) goesOn &&
      stepWith (s 5 true) (irl 6)
        (fun t => tbrWord t == 0x4160#32 && t.psr.pil == 5#4 && t.psr.cwp == 3#5 &&
          reg t 17#5 == 0x1000#32 && reg t 18#5 == 0x1004#32) &&
      stepWith (s 15 true) (irl 15) (fun t => t.tbr.tt == 0x1F#8) &&
      stepWith (nop (s 0 false)) (irl 15) goesOn &&
      stepWith { s 5 true with annul := true } (irl 6)
        (fun t => reg t 17#5 == 0x1004#32 && reg t 18#5 == 0x1008#32 && !t.annul)) = true := by
  decide

/-- Vectors T132, T133: reset, held and released; error_mode. -/
theorem test_reset_vectors :
    let s := { start 0#4 [] with tbr := ⟨4#20, 7#8⟩ }
    let held : Inputs := { Inputs.quiet with resetIn := true }
    (stepWith s held (fun t => t.mode == .reset) &&
      stepWith { s with mode := .reset } Inputs.quiet
        (fun t => t.mode == .execute && t.pc == 0#32 && t.npc == 4#32 && t.psr.s && !t.psr.et &&
          t.tbr.tt == 7#8) &&
      stepWith { s with mode := .error } Inputs.quiet (fun t => t.mode == .error && t.pc == 0x1000#32) &&
      stepWith { s with mode := .error, pbError := true } held
        (fun t => t.mode == .reset && !t.pbError)) = true := by
  decide

/-! ### The Reference MMU -/

/-- The tables of vector T110 with this last entry. -/
def mmuStart (pte : Word) : State :=
  { State.reset with
    cfg := { mmuPresent := true }
    mem :=
      ((((Memory.write32 [] 0x10004 0x2001#32).write32 0x20048 0x2101#32).write32 0x21034
        0x2111#32).write32 0x21114 pte).write32 0xABCDE678 0xCAFEBABE#32
    mmu := { State.reset.mmu with e := true, ctp := 0x400#30, context := 1#32 } }

/-- Vector T110: the load's physical address and the Referenced bit. -/
theorem test_mmu_load :
    (match translate (mmuStart 0x0ABCDE8E#32) .first 0x0A#8 0x12345678#32 false with
      | .ok pa level t =>
        pa == 0x0ABCDE678#36 && level == 3 && t.mem.read32 0x21114 == 0x0ABCDEAE#32
      | .fault _ _ _ => false) = true := by
  decide

/-- Vector T110: the store's Modified bit. -/
theorem test_mmu_store :
    (match translate (mmuStart 0x0ABCDEAE#32) .first 0x0A#8 0x12345678#32 true with
      | .ok _ _ t => t.mem.read32 0x21114 == 0x0ABCDEEE#32
      | .fault _ _ _ => false) = true := by
  decide

/-- Vector T110 with ACC = 0: the protection fault and its registers. -/
theorem test_mmu_protection :
    (match translate (mmuStart 0x0ABCDE82#32) .first 0x0A#8 0x12345678#32 true with
      | .ok _ _ _ => false
      | .fault ft _ t =>
        ft == 2#3 && mmuStatusWord t.mmu.status == 0x38A#32 && t.mmu.far == 0x12345678#32) = true := by
  decide

/-- Vector T110 with an invalid entry at level 1, and with a page there. -/
theorem test_mmu_level1 :
    let s := mmuStart 0x0ABCDE8E#32
    ((match translate { s with mem := s.mem.write32 0x20048 0#32 } .first 0x0A#8 0x12345678#32 false with
      | .ok _ _ _ => false
      | .fault ft _ t => ft == 1#3 && t.mmu.status.level == 1#2) &&
      (match translate { s with mem := s.mem.write32 0x20048 0x0AB0008E#32 } .first 0x0A#8 0x12345678#32
          false with
        | .ok pa level _ => pa == 0x0AB345678#36 && level == 1
        | .fault _ _ _ => false)) = true := by
  decide

/-- An external bus error on the read of the level 2 table (21_reference_mmu.md R175, R188): FT = 4, L = 2, FAV,
AT = 0, nothing set in the page's entry; on a fetch the error of a data walk is none. -/
theorem test_mmu_walk_error :
    let s := { mmuStart 0x0ABCDE8E#32 with now := { Inputs.quiet with machineCheck := some (.dataTableError 2#2) } }
    ((match translate s .first 0x0A#8 0x12345678#32 false with
      | .ok _ _ _ => false
      | .fault ft _ t =>
        ft == 4#3 && t.mmu.status.level == 2#2 && t.mmu.status.access == 0#3 && t.mmu.status.fav &&
          t.mem.read32 0x21114 == 0x0ABCDE8E#32) &&
      (match translate s .fetch 0x08#8 0x12345678#32 false with
        | .ok _ _ _ => true
        | .fault _ _ _ => false)) = true := by
  decide

/-- A store whose cached PTE has R and not M sets M alone in the entry in memory, in which software has cleared R
since (21_reference_mmu.md R201). -/
theorem test_mmu_modified_alone :
    let x : PdcEntry := ⟨1#32, 0x12345000#32, 3, 0x0ABCDEAE#32, 0x21114⟩
    ((markAccessed { mmuStart 0x0ABCDE8E#32 with mmu := { State.reset.mmu with pdc := [x] } } x true).mem.read32 0x21114,
      (markAccessed { mmuStart 0x0ABCDE8E#32 with mmu := { State.reset.mmu with pdc := [x] } } x false).mem.read32
        0x21114) = (0x0ABCDECE#32, 0x0ABCDE8E#32) := by
  decide

/-- Where the implementation has it so an access under a PTE with C = 0 is an I/O access, and not under one with
C = 1 (20_memory.md R120, 21_reference_mmu.md R169; log 42). -/
theorem test_mmu_uncacheable :
    let s (pte : Word) : State :=
      { withRegs (mmuStart pte) [(1#5, 0x12345678#32)] with cfg := { mmuPresent := true, uncacheableIsIo := true } }
    let traced (pte : Word) : Nat :=
      match exec (.ld 2#5 1#5 (.imm 0#13)) (s pte) with
      | .next t => t.ioTrace.length
      | _ => 9
    (traced 0x0ABCDE0E#32, traced 0x0ABCDE8E#32) = (1, 0) := by
  decide

/-- An exception that the coprocessor defers waits for a coprocessor instruction, which takes it; without a queue
there is none (60_exceptions.md R702, R720; log 16). -/
theorem test_deferred_cp_exception :
    let c : Config := { cpPresent := true, cqPresent := true }
    let s : State := { start 0#4 [] with cfg := c }
    let x : Inputs := { Inputs.quiet with cpDeferred := some .op1 }
    (afterWith s 0x01000000 x (fun t => goesOn t && t.cpPending) &&
      afterWith { s with cfg := { c with cqPresent := false } } 0x01000000 x (fun t => goesOn t && !t.cpPending) &&
      after { s with cpPending := true } 0x01000000 (fun t => goesOn t && t.cpPending) &&
      after { s with cpPending := true } 0x81B04002 (fun t => trapped 0x28 t && !t.cpPending)) = true := by
  decide

/-- An exception of a CPop1 that is deferred leaves the condition codes alone (45_cpop.md R680). -/
theorem test_deferred_cpop1_cc (c : CpState) : (cpAfter (.defer .op1) c).cc = c.cc := rfl

/-- With the page of vector T110 a FLUSH of 12345678 finds the copy of a store by another address of its place
(20_memory.md R139, R140), and not one of the next doubleword. -/
theorem test_flush_alias :
    let s := { mmuStart 0x0ABCDE8E#32 with staleWords := [⟨0x678#32, 0xABCDE67C, 1#32, none⟩, ⟨0#32, 0xABCDE680, 1#32, none⟩] }
    (flushDoubleword s 0x12345678#32).staleWords.map StaleWord.flushIn = [some 6, none] := by
  decide

/-- Behind an FPop2 that traps, here a word of none, the fcc hazard lasts for one instruction
(44_fpop.md R609, 70_reset_and_hazards.md R825); behind another FPop there is none. -/
theorem test_fpop2_hazard :
    (fccTurn 0x81A80000#32 0, fccTurn 0x81A80000#32 4, fccTurn 0x81A00000#32 0) = (2, 3, 0) := by
  decide

/-- A word stored in the Control Register selects PSO, and only where the implementation provides it
(20_memory.md R131, 21_reference_mmu.md R181). -/
theorem test_mmu_control :
    let s : State := withRegs { memStart with cfg := { mmuPresent := true } } [(1#5, 0x80#32)]
    let write (s : State) := mmuRegisterWrite s 0#32 0x80#32
    ((match write s with | some t => t.mmu.pso && t.psoMode | none => false) &&
      (match write { s with cfg := { mmuPresent := true, psoSupported := false } } with
        | some t => t.mmu.pso && !t.psoMode
        | none => false) &&
      after s 0xC2A00080 (fun t => t.psoMode && goesOn t)) = true := by
  decide

/-! ### Witnesses: states and operands that meet the hypotheses of each statement, every clause, at the ends of
its range -/

theorem next_of_check {o : Host.Outcome State Fault Refusal}
    (h : (match o with | .next _ => true | _ => false) = true) : ∃ t, o = .next t := by
  cases o with
  | next t => exact ⟨t, rfl⟩
  | fault f => exact absurd h (by simp)
  | refused r => exact absurd h (by simp)

theorem plainAt {s : State} {p : Place} {asi : BitVec 8} {a : Word} {size : Size} (pa : Nat)
    (h : s.now.machineCheck = none ∧ a.toNat % size.alignment = 0 ∧ plainPa s asi a = some pa ∧
      Place.standing (regionKind s.cfg (decodedAsi s.cfg asi) pa) pa = some p ∧
        (size = .dword →
          Place.standing (regionKind s.cfg (decodedAsi s.cfg asi) (pa + 4)) (pa + 4) = some p.next)) :
    PlainAt s p asi a size := ⟨h.1, h.2.1, .inr ⟨pa, h.2.2⟩⟩

theorem plain {s : State} {asi : BitVec 8} {a : Word} {size : Size} {pa : Nat}
    (h : s.now.machineCheck = none ∧ a.toNat % size.alignment = 0 ∧ plainPa s asi a = some pa ∧
      Place.standing (regionKind s.cfg (decodedAsi s.cfg asi) pa) pa = some (.memory pa) ∧
        (size = .dword →
          Place.standing (regionKind s.cfg (decodedAsi s.cfg asi) (pa + 4)) (pa + 4) = some (.memory (pa + 4)))) :
    PlainAccess s asi a size pa := plainAt pa h

/-- In a device's address space. -/
theorem atDevice {s : State} {asi : BitVec 8} {a : Word} {size : Size}
    (h : s.now.machineCheck = none ∧ a.toNat % size.alignment = 0 ∧ asiKind s.cfg asi = .device) :
    PlainAt s (.io a.toNat) asi a size := ⟨h.1, h.2.1, .inl ⟨h.2.2, rfl⟩⟩

/-- The accesses of an untranslated place. -/
theorem loadPlain {s : State} {p : Place} {asi : BitVec 8} {a : Word} {size : Size} (h : PlainAt s p asi a size) :
    LoadAt s p asi a size s := .inl ⟨h, rfl⟩

theorem storePlain {s : State} {p : Place} {asi : BitVec 8} {a : Word} {size : Size} (h : PlainAt s p asi a size) :
    StoreAt s p asi a size { s with storeBarrierPending := false } := .inl ⟨h, rfl⟩

theorem absent {s : State} {asi : BitVec 8} {a : Word} {size : Size} (pa : Nat)
    (h : s.now.machineCheck = none ∧ a.toNat % size.alignment = 0 ∧ plainPa s asi a = some pa ∧
      regionKind s.cfg (decodedAsi s.cfg asi) pa = .unmapped) : LoadFails s asi a size s :=
  .inl ⟨⟨h.1, h.2.1, .inr ⟨pa, h.2.2⟩⟩, rfl⟩

theorem absent_space {s : State} {asi : BitVec 8} {a : Word} {size : Size}
    (h : s.now.machineCheck = none ∧ a.toNat % size.alignment = 0 ∧ asiKind s.cfg asi = .undefined) :
    StoreFails s asi a size { s with storeBarrierPending := false } := .inl ⟨⟨h.1, h.2.1, .inl h.2.2⟩, rfl⟩

/-! What a translation comes to. -/

def faults (o : Translation) : Bool :=
  match o with
  | .fault _ _ _ => true
  | _ => false

def okAt (o : Translation) (pa : Nat) : Bool :=
  match o with
  | .ok p _ _ => p.toNat == pa
  | _ => false

def faultsAt (o : Translation) (pa : Option Nat) : Bool :=
  match o with
  | .fault _ p _ => p.map BitVec.toNat == pa
  | _ => false

def Translation.left : Translation → State
  | .ok _ _ t => t
  | .fault _ _ t => t

theorem translatedAt {s : State} {p : Place} {asi : BitVec 8} {a : Word} {size : Size} {o : Translation} (pa : Nat)
    (h : s.now.machineCheck = none ∧ a.toNat % size.alignment = 0 ∧ asiKind s.cfg asi = .normal ∧
      translating s = true ∧
        Place.standing (locationKind (Translation.left o) (decodedAsi s.cfg asi) a pa) pa = some p ∧
          (size = .dword →
            Place.standing (locationKind (Translation.left o) (decodedAsi s.cfg asi) a (pa + 4)) (pa + 4) =
              some p.next))
    (ho : okAt o pa = true) : TranslatedAt s p asi a size o (Translation.left o) := by
  refine ⟨h.1, h.2.1, h.2.2.1, h.2.2.2.1, .inl ?_⟩
  cases o with
  | ok q k t =>
    have := of_decide_eq_true ho
    subst this
    exact ⟨q, k, rfl, h.2.2.2.2⟩
  | fault ft pa t => exact absurd ho (by simp [okAt])

theorem translated {s : State} {asi : BitVec 8} {a : Word} {size : Size} {o : Translation} {pa : Nat}
    (h : s.now.machineCheck = none ∧ a.toNat % size.alignment = 0 ∧ asiKind s.cfg asi = .normal ∧
      translating s = true ∧
        Place.standing (locationKind (Translation.left o) (decodedAsi s.cfg asi) a pa) pa = some (.memory pa) ∧
          (size = .dword →
            Place.standing (locationKind (Translation.left o) (decodedAsi s.cfg asi) a (pa + 4)) (pa + 4) =
              some (.memory (pa + 4)))) (ho : okAt o pa = true) :
    TranslatedAt s (.memory pa) asi a size o (Translation.left o) := translatedAt pa h ho

theorem suppressedAt {s : State} {asi : BitVec 8} {a : Word} {size : Size} {o : Translation} {pa : Option Nat}
    (h : s.now.machineCheck = none ∧ a.toNat % size.alignment = 0 ∧ asiKind s.cfg asi = .normal ∧
      translating s = true ∧ s.mmu.nf = true ∧ decodedAsi s.cfg asi ≠ 0x09#8) (ho : faultsAt o pa = true) :
    TranslatedAt s (.suppressed pa) asi a size o (Translation.left o) := by
  refine ⟨h.1, h.2.1, h.2.2.1, h.2.2.2.1, .inr ⟨h.2.2.2.2.1, h.2.2.2.2.2, ?_⟩⟩
  cases o with
  | ok q k t => exact absurd ho (by simp [faultsAt])
  | fault ft q t =>
    have h1 : (q.map BitVec.toNat == pa) = true := ho
    exact ⟨ft, q, rfl, by rw [eq_of_beq h1]⟩

theorem failing {s : State} {asi : BitVec 8} {a : Word} {size : Size} {o : Translation}
    (h : s.now.machineCheck = none ∧ a.toNat % size.alignment = 0 ∧ asiKind s.cfg asi = .normal ∧
      translating s = true ∧ (s.mmu.nf = false ∨ decodedAsi s.cfg asi = 0x09#8)) (ho : faults o = true) :
    TranslationFails s asi a size o (Translation.left o) := by
  refine ⟨h.1, h.2.1, h.2.2.1, h.2.2.2.1, .inl ⟨h.2.2.2.2, ?_⟩⟩
  cases o with
  | ok q k t => exact absurd ho (by simp [faults])
  | fault ft q t => exact ⟨ft, q, rfl⟩

theorem astray {s : State} {asi : BitVec 8} {a : Word} {size : Size} {o : Translation} {pa : Nat}
    (h : s.now.machineCheck = none ∧ a.toNat % size.alignment = 0 ∧ asiKind s.cfg asi = .normal ∧
      translating s = true ∧ regionKind s.cfg (decodedAsi s.cfg asi) pa = .unmapped) (ho : okAt o pa = true) :
    TranslationFails s asi a size o (Translation.left o) := by
  refine ⟨h.1, h.2.1, h.2.2.1, h.2.2.2.1, .inr ?_⟩
  cases o with
  | ok q k t =>
    have := of_decide_eq_true ho
    subst this
    exact ⟨q, k, rfl, h.2.2.2.2⟩
  | fault ft pa t => exact absurd ho (by simp [okAt])

/-- The fetch delivers this word. -/
def fetches (s : State) (w : Word) : Bool :=
  match fetch s with
  | .ok x _ => x == w
  | _ => false

theorem of_fetches {s : State} {w : Word} (h : fetches s w = true) : ∃ v, fetch s = .ok w v := by
  unfold fetches at h
  split at h
  · rename_i x t hx
    exact ⟨t, by rw [hx, of_decide_eq_true h]⟩
  · exact absurd h (by simp)

/-- FADDs %f4, %f8, %f12 and FCMPs %f4, %f8 at work. -/
def addWork : FpWork := ⟨.add .single, 12#5, 4#5, 8#5, true, ⟨0x1000#32, 0x99A10828#32⟩⟩
def compareWork : FpWork := ⟨.compare .single false, 0#5, 4#5, 8#5, true, ⟨0x1004#32, 0x81A90A28#32⟩⟩

theorem not_pending {s : State} (h : s.fpuMode = .execute ∨ s.fpuMode = .exception) (r : FpRecord) :
    s.fpuMode ≠ .pending r := by
  rcases h with h | h <;> simp [h]

/-- A state with ADD %g1, %g2, %g3 at PC. -/
def addAtPc : State := (start 0#4 [(1#5, 3#32), (2#5, 4#32)]).withFetchWord 32 0x86004002

theorem test_witness_DecodeOfEncode :
    Instr.wellFormed (.sethi 0#5 1#22) = true ∧ Instr.wellFormed (.unassignedOp2 5#3) = true := by decide

/-- A fetch from untranslated real memory with an FPop ending, and a translated one. -/
theorem test_witness_StepRunsDecodedInstruction :
    let s : State := { addAtPc with inputs := [{ Inputs.quiet with fpuEnds := 2, cpDeferred := some .op1 }] }
    let w := 0x86004002#32
    let t : State := { mmuStart 0x0ABCDE8E#32 with pc := 0x12345678#32 }
    let v := 0xCAFEBABE#32
    let meets (s : State) (w : Word) (n : Nat) (deferred : Option Cpop) : Prop :=
      s.mode = .execute ∧ (takeInputs s).now = { Inputs.quiet with fpuEnds := n, cpDeferred := deferred } ∧
        s.annul = false ∧ (unimplemented s.cfg w = false ∨ isFpopWord w = true) ∧
          ∃ v, fetch (turn (cpDefers (fpEndWork n (takeInputs s)))) = .ok w v
    meets s w 2 (some .op1) ∧ reads w (.add 3#5 1#5 (.reg 2#5)) = true ∧ translating s = false ∧ s.cfg.ibufStale = false ∧
      regionKind s.cfg (fetchAsi (turn (cpDefers (fpEndWork 2 (takeInputs s))))) s.pc.toNat = .realMemory ∧
        wordAt s s.pc.toNat = w ∧ meets t v 0 none ∧ (decode (bytesOfWord v)).isOk = true := by
  exact ⟨⟨by decide, by decide, by decide, by decide, of_fetches (by decide)⟩, by decide, by decide, by decide,
    by decide, by decide, ⟨by decide, by decide, by decide, by decide, of_fetches (by decide)⟩, by decide⟩

/-- An annulled instruction whose fetch delivers a word, is translated, and faults. -/
theorem test_witness_AnnulledInstructionSkipped :
    let s : State := { start 0#4 [] with annul := true }
    let t (pte : Word) : State := { mmuStart pte with pc := 0x12345678#32, annul := true }
    let meets (s : State) : Prop := s.mode = .execute ∧ (takeInputs s).now = Inputs.quiet ∧ s.annul = true
    meets s ∧ translating s = false ∧ regionKind s.cfg (fetchAsi (turn (takeInputs s))) s.pc.toNat ≠ .io ∧
      meets (t 0x0ABCDE8E#32) ∧ fetches (turn (takeInputs (t 0x0ABCDE8E#32))) 0xCAFEBABE#32 = true ∧
        meets (t 0x0ABCDE82#32) ∧
          (match fetch (turn (takeInputs (t 0x0ABCDE82#32))) with | .fault _ _ => true | _ => false) = true := by
  decide

/-- Taken: level 15 with PIL 15, level 6 above PIL 5. Not taken: ET = 0; level 5 with PIL 5. Pending: no WRPSR;
one behind another and before a WRY. -/
theorem test_witness_InterruptTaken :
    let s (pil : BitVec 4) (et : Bool) (level : BitVec 4) : State :=
      { startWith { startPsr 0#4 true with pil := pil, et := et } 0#32 [] with
        inputs := [{ Inputs.quiet with irl := level }] }
    let t : State := { s 5 true 6 with pending := [⟨.psr, 0xF23#32, 1⟩, ⟨.psr, 0x5A3#32, 2⟩, ⟨.y, 0#32, 3⟩] }
    let meets (s : State) (level : BitVec 4) : Prop :=
      s.mode = .execute ∧ (takeInputs s).now = { Inputs.quiet with irl := level }
    let p (s : State) : Psr := effectivePsr (takeInputs s)
    (meets (s 15 true 15) 15 ∧ (p (s 15 true 15)).et = true) ∧
      (meets (s 5 true 6) 6 ∧ (p (s 5 true 6)).et = true ∧ (p (s 5 true 6)).pil < 6#4) ∧
        (meets (s 0 false 15) 15 ∧ (p (s 0 false 15)).et = false) ∧
          (meets (s 5 true 5) 5 ∧ (5#4 : BitVec 4) ≠ 15#4 ∧ 5#4 ≤ (p (s 5 true 5)).pil) ∧
            (∀ x ∈ (s 5 true 6).pending, x.reg ≠ .psr) ∧ meets t 6 ∧
              t.pending = [⟨.psr, 0xF23#32, 1⟩] ++ ⟨.psr, 0x5A3#32, 2⟩ :: [⟨.y, 0#32, 3⟩] ∧
                ∀ x ∈ [(⟨.y, 0#32, 3⟩ : PendingWrite)], x.reg ≠ .psr := by decide

theorem test_witness_ResetAndErrorModes :
    let s (m : Mode) (r : Bool) : State :=
      { start 0#4 [] with mode := m, inputs := [{ Inputs.quiet with resetIn := r }] }
    (s .error true).mode = .error ∧ (takeInputs (s .error true)).now.resetIn = true ∧
      (s .error false).mode = .error ∧ (takeInputs (s .error false)).now.resetIn = false ∧
        (s .error false).cfg.resetOnError = false ∧
        ({ s .error false with cfg := { resetOnError := true } } : State).cfg.resetOnError = true ∧ (s .execute true).mode = .execute ∧
          (takeInputs (s .execute true)).now.resetIn = true ∧ (s .reset true).mode = .reset ∧
            (takeInputs (s .reset true)).now.resetIn = true ∧ (s .reset false).mode = .reset ∧
              (takeInputs (s .reset false)).now.resetIn = false := by decide

/-- For StepKeepsMemoryCanonical, StepKeepsPcAndWindowsLegal and StepKeepsFpuSynchronous: memory is not empty, a
WRPSR is pending, and the step has a next state. -/
theorem test_witness_invariants :
    let s : State := { addAtPc with pending := [⟨.psr, 0xA7#32, 2⟩] }
    s.mem.wf ∧ PcAligned s ∧ (WindowExists s ∧ WimImplemented s) ∧ NoQueueNoDeferral s ∧
      ∃ t, step s = .next t := by
  refine ⟨by decide, by unfold PcAligned; decide, ⟨by unfold WindowExists; decide,
    by unfold WimImplemented; decide⟩, by unfold NoQueueNoDeferral; decide, next_of_check (by decide)⟩

/-- A register that is not r[0], and another one; the ends of the outs, the locals and the ins, in the last
window and the first. -/
theorem test_witness_RegistersAndWindows :
    let c := State.reset.cfg
    (1#5 ≠ 0#5 ∧ 31#5 ≠ 1#5) ∧ (7#5).toNat < c.nwindows ∧ (0#5).toNat < c.nwindows ∧
      (8 ≤ (8#5).toNat ∧ (15#5).toNat ≤ 15) ∧ 24 ≤ (24#5).toNat ∧ 24 ≤ (31#5).toNat ∧
        (16 ≤ (16#5).toNat ∧ (23#5).toNat ≤ 23) ∧ (0#5 : BitVec 5) ≠ 7#5 ∧ cwpBelow c 0#5 = 7#5 ∧
          cwpAbove c 7#5 = 0#5 := by decide

/-- Supervisor mode and user mode. -/
theorem test_witness_OperandForms :
    (start 0#4 []).psr.s = true ∧ (startWith { startPsr 0#4 true with s := false } 0#32 []).psr.s = false := by
  decide

/-- No tag and no overflow; a tag; an overflow. -/
theorem test_witness_TaggedResults :
    let v (f : Word → Word → Word → Icc) (a b r : Word) : Bool :=
      (f a b r).v || (decide (a.toNat % 4 ≠ 0) || decide (b.toNat % 4 ≠ 0))
    v iccAdd 4 8 12 = false ∧ v iccAdd 5 8 13 = true ∧ v iccAdd 0x7FFFFFFC 4 0x80000000 = true ∧
      v iccSub 8 4 4 = false ∧ v iccSub 8 3 5 = true ∧ v iccSub 0x80000000 4 0x7FFFFFFC = true := by decide

theorem test_witness_DivideResults :
    let s := start 0#4 [(9#5, 7#32)]
    operand2 s (.reg 9#5) ≠ 0#32 ∧ operand2 s (.reg 0#5) = 0#32 ∧ operand2 s (.imm 0x1FFF#13) ≠ 0#32 := by
  decide

/-- The FPU ready, without a queue and at work on an addition; outside the fcc hazard and with its count at 1,
its last value. -/
theorem test_witness_FloatingBranches :
    let s := start 0#4 []
    let t : State := { s with cfg := { fqPresent := true }, fpuQueue := [addWork], fccWindow := 1 }
    FpuReady s ∧ Independent s FpWork.compares ∧ s.fccWindow = 0 ∧ FpuReady t ∧ Independent t FpWork.compares ∧
      t.fccWindow ≠ 0 := by unfold FpuReady Independent; decide

/-- A state with the coprocessor present and enabled, and one entry in its queue. -/
def cpStart : State :=
  { memStart with
    cfg := { cpPresent := true, cqPresent := true }
    cp := { State.reset.cp with cq := [(1#32, 2#32)] } }

/-- The coprocessor answers, and raises an exception; one is outstanding. -/
theorem test_witness_CoprocessorBranches :
    let t : State := { cpStart with now := { Inputs.quiet with cpException := true } }
    ecOn cpStart = true ∧ cpStart.now.cpException = false ∧ ecOn t = true ∧ t.now.cpException = true ∧
      t.cpPending = false ∧ ({ t with cpPending := true } : State).cpPending = true := by
  decide

/-- SAVE and RESTORE into a valid and into an invalid window. -/
theorem test_witness_SaveRestoreResults :
    let s (wim : Word) : State := { start 0#4 [] with wim := wim }
    let below := BitVec.ofNat 5 ((3 + 8 - 1) % 8)
    let above := BitVec.ofNat 5 ((3 + 1) % 8)
    (s 0).psr.cwp.toNat = 3 ∧ (s 0).cfg.nwindows = 8 ∧ (wimWord (s 0)).getLsbD below.toNat = false ∧
      (wimWord (s 4)).getLsbD below.toNat = true ∧ (wimWord (s 0)).getLsbD above.toNat = false ∧
        (wimWord (s 16)).getLsbD above.toNat = true := by decide

theorem test_witness_CallAndJumpResults :
    let s := start 0#4 [(1#5, 0x3000#32)]
    (effectiveAddress s 1#5 (.imm 8#13)).toNat % 4 = 0 ∧ (effectiveAddress s 1#5 (.imm 1#13)).toNat % 4 ≠ 0 ∧
      (effectiveAddress s 1#5 (.imm 3#13)).toNat % 4 ≠ 0 := by decide

/-- RETT's cases: it returns; each failing check; traps enabled in either mode. -/
theorem test_witness_ReturnFromTrap :
    let s (et sup : Bool) (wim : Word) : State :=
      { startWith { startPsr 0#4 true with et := et, s := sup } 0#32 [(18#5, 0x1008#32)] with
        wim := wim }
    let invalid (s : State) : Bool :=
      (wimWord s).getLsbD (BitVec.ofNat 5 ((s.psr.cwp.toNat + 1) % s.cfg.nwindows)).toNat
    let target (s : State) (v : BitVec 13) : Nat := (effectiveAddress s 18#5 (.imm v)).toNat % 4
    (s false true 0).psr.et = false ∧ (s false true 0).psr.s = true ∧ (s false true 0).pending = [] ∧
      invalid (s false true 0) = false ∧ target (s false true 0) 0 = 0 ∧ target (s false true 0) 2 ≠ 0 ∧
        invalid (s false true 16) = true ∧ (s false false 0).psr.s = false ∧
          (s false false 0).pending = [] ∧ (s true true 0).psr.et = true ∧ (s true false 0).psr.s = false := by
  decide

/-- Both results of a Ticc test. -/
theorem test_witness_SoftwareTraps :
    let c := (start 4#4 []).psr.icc
    c.z = true ∧ (!c.z) = false := by decide

/-- Delayed writes pending and none; traps enabled and disabled; a precise and a deferred fp_exception. -/
theorem test_witness_TrapEntry :
    let s := start 0#4 []
    let off := startWith { startPsr 0#4 true with et := false } 0#32 []
    let w : State := { s with pending := [⟨.wim, 1#32, 4⟩, ⟨.y, 2#32, 4⟩] }
    let t : State := { s with fpuMode := .pending ⟨3#3, none⟩, fpuQueue := [addWork] }
    w.pending = ⟨.wim, 1#32, 4⟩ :: [⟨.y, 2#32, 4⟩] ∧ (off.psr.et = false ∧ off.pending = []) ∧
      (s.psr.et = true ∧ s.pending = [] ∧ ∀ q, s.fpuMode ≠ .pending q) ∧
        (t.psr.et = true ∧ t.pending = [] ∧ ∃ q, t.fpuMode = .pending q) := by
  exact ⟨by decide, by decide, ⟨by decide, by decide, not_pending (by decide)⟩, by decide, by decide, _, rfl⟩

/-- User mode, with ASR 1 and ASR 31 privileged. -/
theorem test_witness_PrivilegedInUserMode :
    let s : State :=
      { startWith { startPsr 0#4 true with s := false } 0#32 [] with cfg := { asrPrivileged := 0x80000002#32 } }
    s.psr.s = false ∧ s.cfg.asrPrivileged.getLsbD (1#5).toNat = true ∧
      s.cfg.asrPrivileged.getLsbD (31#5).toNat = true := by decide

/-- WRPSR of the first window that does not exist; an odd rd; ASR 16 and 31. -/
theorem test_witness_IllegalInstructions :
    let s := start 0#4 []
    s.psr.s = true ∧ s.cfg.nwindows ≤ (reg s 0#5 ^^^ operand2 s (.imm 8#13)).toNat % 32 ∧
      s.cfg.oddRdLddTraps = true ∧ (31#5).toNat % 2 = 1 ∧ 16 ≤ (16#5).toNat ∧
        s.cfg.asrImplemented.getLsbD ((16#5).toNat - 16) = false ∧
          s.cfg.asrPrivileged.getLsbD (16#5).toNat = false ∧
            s.cfg.asrImplemented.getLsbD ((31#5).toNat - 16) = false ∧
              ({ asrPrivileged := 0x80000000#32 } : Config).asrPrivileged.getLsbD (31#5).toNat = true := by
  decide

/-- A state with ASR 16 and a privileged ASR 31. -/
def asrStart : State :=
  { start 0#4 [] with cfg := { asrImplemented := 0x8001#16, asrPrivileged := 0x80000000#32 } }

theorem test_witness_ReadStateRegisters :
    let c := asrStart.cfg
    asrStart.psr.s = true ∧ (16#5).toNat = 16 + (0 : Fin 16).val ∧ c.asrImplemented.getLsbD (0 : Fin 16).val = true ∧
      c.asrPrivileged.getLsbD (16#5).toNat = false ∧ (31#5).toNat = 16 + (15 : Fin 16).val ∧
        c.asrImplemented.getLsbD (15 : Fin 16).val = true ∧
        c.asrPrivileged.getLsbD (31#5).toNat = true ∧ (15#5).toNat < 16 ∧
          c.asrPrivileged.getLsbD (15#5).toNat = false := by decide

/-- WRPSR of the last window that exists; a delay of 3 and of 0; the ASRs as for reading. -/
theorem test_witness_WriteStateRegisters :
    let s := asrStart
    let t : State := { s with cfg := { wrDelay := 0 } }
    s.psr.s = true ∧ (reg s 0#5 ^^^ operand2 s (.imm 7#13)).toNat % 32 < s.cfg.nwindows ∧
      s.cfg.wrDelay.val ≠ 0 ∧ t.cfg.wrDelay.val = 0 ∧
        (16#5).toNat = 16 + (0 : Fin 16).val ∧ s.cfg.asrImplemented.getLsbD (0 : Fin 16).val = true ∧
          s.cfg.asrPrivileged.getLsbD (16#5).toNat = false ∧ (15#5).toNat < 16 := by decide

/-- A delayed write at the end of its turns; instructions of which each field's hazard holds and one of which none
does: those that read and write the fields of the remembered writes, and NOP. -/
theorem test_witness_DelayedWriteTurns :
    let s := start 0#4 []
    let meets (r : StateReg) (f : List StateField) (i : Instr) (b : Bool) : Bool :=
      i.wellFormed && wrHazard { s with recentWrites := [⟨r, f, 1⟩] } i == b
    (({ s with pending := [⟨.y, 5#32, 3 + 1⟩] } : State).pending = [⟨.y, 5#32, 3 + 1⟩] ∧ 3 ≤ 3) ∧
      (meets .psr [.cwp] (.add 1#5 8#5 (.reg 2#5)) true && meets .psr [.cwp] (.st 7#5 2#5 (.reg 31#5)) true &&
        meets .psr [.cwp] (.call 0#30) true && meets .psr [.cwp] (.add 1#5 7#5 (.imm 31#13)) false &&
        meets .psr [.icc] (.addx 1#5 2#5 (.reg 3#5)) true && meets .psr [.icc] (.bne false 0#22) true &&
        meets .psr [.pil] (.addcc 1#5 2#5 (.reg 3#5)) true && meets .psr [.pil] (.add 1#5 2#5 (.reg 3#5)) false &&
        meets .wim [.wim] (.save 1#5 2#5 (.reg 3#5)) true && meets .y [.y] (.udiv 1#5 2#5 (.reg 3#5)) true &&
        meets .y [] (.smul 1#5 2#5 (.reg 3#5)) true && meets .psr [.s] (.rdtbr 1#5) true &&
        meets .psr [.ef] (.fba false 0#22) true && meets .psr [.ec] (.cpop1 0#5 1#5 0#9 2#5) true &&
        meets (.asr 15) [.asr 15] (.rdasr 1#5 31#5) true && meets .tbr [.tba] (.rdtbr 1#5) true &&
        meets .psr [.icc, .ec, .ef, .pil, .s, .ps, .et, .cwp] .nop false) = true := by
  decide

/-- Each FLUSH_IMPLEMENTED; copies of the flushed doubleword (2000 to 2007), one of them marked with the longest
delay, one stored to by another address, and of the next one; a translation that succeeds. -/
theorem test_witness_BarrierAndFlush :
    let c (f : FlushImpl) : Config := { flushImpl := f }
    let x : StaleWord := ⟨0x2007#32, 0x2004, 1#32, none⟩
    let y : StaleWord := ⟨0x2000#32, 0x2000, 1#32, some 6⟩
    let z : StaleWord := ⟨0x2008#32, 0x2008, 1#32, none⟩
    let other : StaleWord := ⟨0x9000#32, 0x2000, 1#32, none⟩
    let t := mmuStart 0x0ABCDE8E#32
    let s : State := { memStart with cfg := { ibufStale := true }, staleWords := [x, y, z, other] }
    let a := (effectiveAddress s 8#5 (.imm 4#13)).toNat
    s.cfg.ibufStale = true ∧ (c .inHardware).ibufStale = false ∧ s.cfg.flushImpl = .inHardware ∧ s.staleWords[0]? = some x ∧ x.va.toNat / 8 = a / 8 ∧ x.flushIn = none ∧
      y.va.toNat / 8 = a / 8 ∧ y.flushIn ≠ none ∧ z.va.toNat / 8 ≠ a / 8 ∧ z.flushIn = none ∧
        other.va.toNat / 8 ≠ a / 8 ∧ physicalOf s (effectiveAddress s 8#5 (.imm 4#13)) = some 0x2004 ∧
        other.pa / 8 = 0x2004 / 8 ∧ z.pa / 8 ≠ 0x2004 / 8 ∧ (∀ x ∈ s.staleWords, x.pa ≠ 0x2010) ∧
        translating s = false ∧ translating t = true ∧
        faults (translateCached t .second 0x0A#8 0x12345678#32 false) = false ∧
        (∀ x ∈ s.staleWords, ∀ k ∈ x.flushIn, k ≤ 6) ∧
          (c .trapsUnimplementedFlush).flushImpl = .trapsUnimplementedFlush ∧
            (c .trapsIllegalInstruction).flushImpl = .trapsIllegalInstruction := by decide

/-- A state with a page of physical memory under ASI 0x2F as well. -/
def physicalStart : State :=
  { memStart with
    cfg := { mmuPresent := true } }

/-- A state with the MMU enabled and the tables of vector T110, its page at 12345000. -/
def pageStart : State := mmuStart 0x0ABCDE8E#32

/-- The entry of vector T110 translates: the last bytes of its page, and a doubleword at its start. -/
theorem test_witness_translated_accesses :
    let s := pageStart
    let read (a : Word) : Translation := translate s .first 0x0B#8 a false
    let u : State := { s with storeBarrierPending := false }
    let write (a : Word) : Translation := translate u .first 0x0B#8 a true
    let r := Translation.left (read 0x12345FFC#32)
    let again : Translation := translateCached { r with storeBarrierPending := false } .second 0x0B#8 0x12345FFC#32 true
    ReadAccess s 0x0B#8 0x12345FFF#32 .byte 0x0ABCDEFFF (Translation.left (read 0x12345FFF#32)) ∧
      ReadAccess s 0x0B#8 0x12345000#32 .dword 0x0ABCDE000 (Translation.left (read 0x12345000#32)) ∧
        WriteAccess s 0x0B#8 0x12345FFE#32 .half 0x0ABCDEFFE (Translation.left (write 0x12345FFE#32)) ∧
          WriteAccess s 0x0B#8 0x12345000#32 .dword 0x0ABCDE000 (Translation.left (write 0x12345000#32)) ∧
            AtomicAccess s 0x0B#8 0x12345FFC#32 .word 0x0ABCDEFFC r 0x0ABCDEFFC (Translation.left again) := by
  refine ⟨.inr (translated (by decide) (by decide)), .inr (translated (by decide) (by decide)),
    .inr (translated (by decide) (by decide)), .inr (translated (by decide) (by decide)),
    .inr (translated (by decide) (by decide)), .inr (translated (by decide) (by decide))⟩

/-- Each size, in the data space and in an alternate space; the last bytes of the address space; physical
memory above 2^32. Untranslated accesses are read accesses that leave the state as it is; translated ones are
those of test_witness_translated_accesses. -/
theorem test_witness_LoadResults :
    let s := physicalStart
    let a (v : BitVec 13) : Word := effectiveAddress s 8#5 (.imm v)
    (PlainAccess s 0x0B#8 (a 7) .byte 0x2007 ∧ PlainAccess s 0x0B#8 (a 6) .half 0x2006 ∧
      PlainAccess s 0x0B#8 (a 4) .word 0x2004 ∧ PlainAccess s 0x0B#8 (a 0) .dword 0x2000) ∧
    (s.psr.s = true ∧ PlainAccess s 0x08#8 0x2007#32 .byte 0x2007 ∧
      PlainAccess s 0x0A#8 0xFFFFFFFF#32 .byte 0xFFFFFFFF ∧
        PlainAccess s 0x09#8 0xFFFFFFFE#32 .half 0xFFFFFFFE ∧
          PlainAccess s 0x2F#8 0xFFFFFFFC#32 .word 0xFFFFFFFFC ∧
            PlainAccess s 0x2F#8 0xFFFFFFF8#32 .dword 0xFFFFFFFF8) ∧
    ((12#5).toNat % 2 = 0 ∧ ({ oddRdLddTraps := false } : Config).oddRdLddTraps = false) := by
  refine ⟨⟨?_, ?_, ?_, ?_⟩, ⟨by decide, ?_, ?_, ?_, ?_, ?_⟩, by decide⟩ <;> exact plain (by decide)

/-- The accesses of StoreResults are those of LoadResults; here in user mode, and with a stale instruction buffer. -/
theorem test_witness_StoreResults :
    let s := startWith { startPsr 0#4 true with s := false } 0#32 [(8#5, 0x2000#32)]
    let a (v : BitVec 13) : Word := effectiveAddress s 8#5 (.imm v)
    let t : State := { s with cfg := { ibufStale := true } }
    PlainAccess s 0x0A#8 (a 7) .byte 0x2007 ∧ PlainAccess s 0x0A#8 (a 6) .half 0x2006 ∧
      PlainAccess s 0x0A#8 (a 4) .word 0x2004 ∧ PlainAccess s 0x0A#8 (a 0) .dword 0x2000 ∧
        PlainAccess t 0x0A#8 (a 0) .dword 0x2000 := by
  refine ⟨?_, ?_, ?_, ?_, ?_⟩ <;> exact plain (by decide)

/-- Memory is not blocked; each kind of block. -/
theorem test_witness_AtomicResults :
    let s := memStart
    let t : State := { s with blockByte := true }
    let u : State := { s with blockWord := true }
    (s.blockByte = false ∧ s.blockWord = false) ∧ PlainAccess s 0x0B#8 0x2003#32 .byte 0x2003 ∧
      PlainAccess s 0x0B#8 0x2004#32 .word 0x2004 ∧ t.blockByte = true ∧ u.blockWord = true ∧
        (effectiveAddress t 8#5 (.imm 4#13)).toNat % 4 = 0 ∧ s.psr.s = true := by
  exact ⟨by decide, plain (by decide), plain (by decide), by decide⟩

/-- Misaligned addresses next to aligned ones, with each unit enabled. -/
theorem test_witness_MisalignedAddressesTrap :
    let s := cpStart
    let a (v : BitVec 13) : Nat := (effectiveAddress s 8#5 (.imm v)).toNat
    a 1 % 2 ≠ 0 ∧ a 2 % 4 ≠ 0 ∧ a 3 % 4 ≠ 0 ∧ a 4 % 8 ≠ 0 ∧ a 7 % 8 ≠ 0 ∧ (12#5).toNat % 2 = 0 ∧
      s.psr.s = true ∧ efOn s = true ∧ ecOn s = true := by decide

/-- A state whose memory ends below 1000. -/
def smallStart : State :=
  { start 0#4 [(8#5, 0x1000#32)] with cfg := { memoryMap := [⟨[], 0, 0x1000, .realMemory⟩] } }

/-- The first address past memory, for each size and for the fetch; an undefined address space; a translation that
fails, of a read, a write, in ASI 9 with NF set, and of the write behind a read that does not, of memory and of an
I/O location that nothing drives; one that leads past memory; each unit enabled; memory free; both queues with an entry. -/
theorem test_witness_AccessExceptions :
    let s : State :=
      { smallStart with
        cfg := { smallStart.cfg with fqPresent := true, cpPresent := true, cqPresent := true }
        cp := { State.reset.cp with cq := [(1#32, 2#32)] } }
    let a := effectiveAddress s 8#5 (.imm 0#13)
    let page (pte : Word) (nf : Bool) : State := let s := mmuStart pte; { s with mmu := { s.mmu with nf := nf } }
    let far : State :=
      { page 0x0ABCDE8E#32 true with cfg := { mmuPresent := true, memoryMap := [⟨[], 0, 0x100000, .realMemory⟩] } }
    let va := 0x12345678#32
    let refused := page 0x0ABCDE92#32 false
    let kept := page 0x0ABCDE82#32 false
    let r := Translation.left (translate kept .first 0x0B#8 va false)
    let half := translateCached { r with storeBarrierPending := false } .second 0x0B#8 va true
    let load (s : State) (asi : BitVec 8) : Translation := translate s .first asi va false
    let io : State := { page 0x0ABCDE02#32 false with cfg := { mmuPresent := true, uncacheableIsIo := true } }
    let r' := Translation.left (load io 0x0B#8)
    let u' (v : Word) : State :=
      { r' with freeDraws := r'.freeDraws + 1, ioTrace := r'.ioTrace ++ [⟨false, 0x0B#8, 0x0ABCDE678, .word, v⟩] }
    let half' (v : Word) := translateCached { u' v with storeBarrierPending := false } .second 0x0B#8 va true
    (LoadFails s 0x0B#8 a .byte s ∧ LoadFails s 0x0B#8 a .half s ∧ LoadFails s 0x0B#8 a .word s ∧
      LoadFails s 0x0B#8 a .dword s ∧ LoadFails s 0x0B#8 (effectiveAddress s 8#5 (.imm 3#13)) .byte s) ∧
    (s.psr.s = true ∧ StoreFails s 0x40#8 (reg s 8#5 + reg s 0#5) .byte { s with storeBarrierPending := false } ∧
      StoreFails s 0x40#8 0xFFFFFFF8#32 .dword { s with storeBarrierPending := false }) ∧
    (LoadFails refused 0x0B#8 va .dword (Translation.left (load refused 0x0B#8)) ∧
      (let o := translate { kept with storeBarrierPending := false } .first 0x0A#8 va true
      StoreFails kept 0x0A#8 va .word (Translation.left o)) ∧
      LoadFails (page 0x0ABCDE82#32 true) 0x09#8 va .half (Translation.left (load (page 0x0ABCDE82#32 true) 0x09#8)) ∧
      LoadFails far 0x0B#8 va .word (Translation.left (load far 0x0B#8)) ∧
      (LoadAt kept (.memory 0x0ABCDE678) 0x0B#8 va .word r ∧ Delivers (.memory 0x0ABCDE678) r 0x0B#8 .word false 0xCAFEBABE#32 r ∧
        WriteHalfFails r 0x0B#8 va .word (Translation.left half))) ∧
    (r'.now.io = none ∧ LoadAt io (.io 0x0ABCDE678) 0x0B#8 va .word r' ∧
      ∀ v, WriteHalfFails (u' v) 0x0B#8 va .word (Translation.left (half' v))) ∧
    ((12#5).toNat % 2 = 0 ∧ s.blockByte = false ∧ s.blockWord = false ∧ FpuReady s ∧ s.fpuQueue = []) ∧
    (efOn s = true ∧ (∀ r, s.fpuMode ≠ .pending r) ∧ s.cfg.fqPresent = true ∧
      ({ s with fq := [addWork.entry] } : State).fq ≠ []) ∧
    (ecOn s = true ∧ s.cpPending = false ∧ s.now.cpException = false ∧ s.cfg.cqPresent = true ∧ s.cp.cq ≠ []) ∧
    (s.mode = .execute ∧ (takeInputs s).now = Inputs.quiet ∧ s.annul = false ∧ translating s = false ∧
      regionKind s.cfg (fetchAsi (turn (takeInputs s))) s.pc.toNat = .unmapped) := by
  refine ⟨⟨?_, ?_, ?_, ?_, ?_⟩, ⟨by decide, absent_space (by decide), absent_space (by decide)⟩,
    ⟨.inr (failing (by decide) (by decide)), .inr (failing (by decide) (by decide)),
      .inr (failing (by decide) (by decide)), .inr (astray (pa := 0x0ABCDE678) (by decide) (by decide)),
      .inr (translated (by decide) (by decide)), ⟨by decide, rfl⟩, .inr (failing (by decide) (by decide))⟩,
    ⟨rfl, .inr (translatedAt 0x0ABCDE678 (by decide) (by decide)), fun v => .inr (failing
      ⟨rfl, by decide, rfl, rfl, .inl rfl⟩ rfl)⟩,
    by unfold FpuReady; decide,
    ⟨by decide, not_pending (by decide), by decide, by decide⟩, by decide, by decide⟩
  · exact absent 0x1000 (by decide)
  · exact absent 0x1000 (by decide)
  · exact absent 0x1000 (by decide)
  · exact absent 0x1000 (by decide)
  · exact absent 0x1003 (by decide)

/-- The ends of an I/O region, for each size, and of a read-only one; a device's address space; an I/O access by its
PTE; a load, a store and both halves of an atomic under suppressed faults; an atomic whose write alone is; fetches of
an I/O location, of read-only memory, of a page and with a stale instruction buffer; an address of the second region and one of none. -/
theorem test_witness_AccessesElsewhere :
    let c : Config :=
      { memoryMap := [⟨[], 0x3000, 16, .io⟩, ⟨[0x0B#8], 0x3100, 16, .rom⟩], asiMap := [(0x40#8, .device)] }
    let s : State := { start 0#4 [(8#5, 0x3000#32)] with cfg := c }
    let a (v : BitVec 13) : Word := effectiveAddress s 8#5 (.imm v)
    let page (pte : Word) (nf : Bool) : State := let s := mmuStart pte; { s with mmu := { s.mmu with nf := nf } }
    let va := 0x12345678#32
    let u (s : State) : State := { s with storeBarrierPending := false }
    let io : State := { page 0x0ABCDE0E#32 false with cfg := { mmuPresent := true, uncacheableIsIo := true } }
    let none := page 0#32 true
    let kept := page 0x0ABCDE82#32 true
    let load (s : State) : Translation := translate s .first 0x0B#8 va false
    let store (s : State) : Translation := translate (u s) .first 0x0B#8 va true
    let half (s : State) : Translation := translateCached (u s) .second 0x0B#8 va true
    let left := Translation.left
    let drawn (s : State) : State := { s with freeDraws := s.freeDraws + 1 }
    (LoadAt s (.io 0x300F) 0x0B#8 (a 15) .byte s ∧ StoreAt s (.io 0x300E) 0x0B#8 (a 14) .half (u s) ∧
      (∀ old : Word,
        let read : State := { s with freeDraws := s.freeDraws + 1, ioTrace := [⟨false, 0x0B#8, 0x300C, .word, old⟩] }
        WriteHalfAt read (.io 0x300C) 0x0B#8 (a 12) .word (u read)) ∧ LoadAt s (.io 0x300C) 0x0B#8 (a 12) .word s ∧
        s.now.io = .none ∧ LoadAt s (.io 0x3008) 0x0B#8 (a 8) .dword s ∧
        LoadAt s (.readOnly 0x3100) 0x0B#8 (a 0x100) .word s ∧
          StoreAt s (.readOnly 0x3108) 0x0B#8 (a 0x108) .dword (u s)) ∧
    (s.psr.s = true ∧ LoadAt s (.io 0x3000) 0x40#8 (reg s 8#5 + reg s 0#5) .word s ∧
      LoadAt s (.io 0xFFFFFFF8) 0x40#8 0xFFFFFFF8#32 .dword s) ∧
    (LoadAt io (.io 0x0ABCDE678) 0x0B#8 va .word (left (load io)) ∧
      LoadAt none (.suppressed .none) 0x0B#8 va .dword (left (load none)) ∧
      StoreAt kept (.suppressed (some 0x0ABCDE678)) 0x0B#8 va .dword (left (store kept)) ∧
      Delivers (.suppressed .none) (left (load none)) 0x0B#8 .byte false 0#32 (drawn (left (load none))) ∧
      WriteHalfAt (drawn (left (load none))) (.suppressed .none) 0x0B#8 va .byte (left (half (drawn (left (load none))))) ∧
      (LoadAt kept (.memory 0x0ABCDE678) 0x0B#8 va .word (left (load kept)) ∧
        WriteHalfAt (left (load kept)) (.suppressed (some 0x0ABCDE678)) 0x0B#8 va .word (left (half (left (load kept)))))) ∧
    (s.blockByte = false ∧ s.blockWord = false ∧ (12#5).toNat % 2 = 0 ∧ s.now.machineCheck = .none ∧
      translating s = false ∧ locationKind s 0x09#8 (a 0) (a 0).toNat = .io ∧
        locationKind { s with cfg := { memoryMap := [⟨[], 0, 0x2000, .rom⟩] } } 0x09#8 s.pc s.pc.toNat = .rom ∧
          (let t := { mmuStart 0x0ABCDE8E#32 with pc := va }
          okAt (translate t .fetch 0x09#8 va false) 0x0ABCDE678 = true) ∧
            locationKind { s with cfg := { ibufStale := true } } 0x09#8 s.pc s.pc.toNat = .realMemory ∧
            regionKind c 0x0B#8 0x310F = .rom ∧ regionKind c 0x0A#8 0x310F = .unmapped) := by
  intro c s a page va u io none kept load store half left drawn
  refine ⟨⟨loadPlain (plainAt 0x300F (by decide)), storePlain (plainAt 0x300E (by decide)),
    fun _ => .inl ⟨(plainAt 0x300C (by decide) : PlainAt s (.io 0x300C) 0x0B#8 (a 12) .word), rfl⟩,
    loadPlain (plainAt 0x300C (by decide)), rfl, loadPlain (plainAt 0x3008 (by decide)),
    loadPlain (plainAt 0x3100 (by decide)), storePlain (plainAt 0x3108 (by decide))⟩,
    ⟨by decide, loadPlain (atDevice (by decide)), loadPlain (atDevice (by decide))⟩,
    ⟨.inr (translatedAt 0x0ABCDE678 (by decide) (by decide)), .inr (suppressedAt (by decide) (by decide)),
      .inr (suppressedAt (by decide) (by decide)), ⟨by decide, rfl⟩, .inr (suppressedAt (by decide) (by decide)),
      .inr (translatedAt 0x0ABCDE678 (by decide) (by decide)), .inr (suppressedAt (by decide) (by decide))⟩, by decide⟩

/-- An FPU at work on an FPop that does not name the destination, and on none; an even register, and an odd one
where the FPU ignores the low bit. -/
theorem test_witness_FloatingLoads :
    let s := memStart
    let t : State := { s with cfg := { fqPresent := true, misalignedFregTraps := false }, fpuQueue := [addWork] }
    let a (s : State) (v : BitVec 13) : Word := effectiveAddress s 8#5 (.imm v)
    let u : State := { s with cfg := { memoryMap := [⟨[], 0x2000, 8, .io⟩] } }
    (FpuReady u ∧ LoadAt u (.io 0x2004) 0x0B#8 (a u 4) .word u ∧ LoadAt u (.io 0x2000) 0x0B#8 (a u 0) .dword u ∧
      u.fpuQueue = []) ∧
    (FpuReady s ∧ LoadAt s (.memory 0x2004) 0x0B#8 (a s 4) .word s ∧ LoadAt s (.memory 0x2000) 0x0B#8 (a s 0) .dword s ∧
      (30#5).toNat % 2 = 0 ∧ s.fpuQueue = []) ∧
    (FpuReady t ∧ LoadAt t (.memory 0x2004) 0x0B#8 (a t 4) .word t ∧ Independent t (fun x => x.touches 13#5) ∧
      LoadAt t (.memory 0x2000) 0x0B#8 (a t 0) .dword t ∧ t.cfg.misalignedFregTraps = false ∧
        Independent t (fun x => x.touches 10#5 || x.touches 11#5)) := by
  unfold FpuReady Independent
  exact ⟨⟨by decide, loadPlain (plainAt 0x2004 (by decide)), loadPlain (plainAt 0x2000 (by decide)), rfl⟩,
    ⟨by decide, loadPlain (plain (by decide)), loadPlain (plain (by decide)), by decide⟩, by decide, loadPlain (plain (by decide)), by decide,
    loadPlain (plain (by decide)), by decide⟩

/-- An FPU that is ready, without a queue; one with an entry in its queue, and with its last one; at work on an
FPop that names other registers. -/
theorem test_witness_FloatingStores :
    let s := memStart
    let e : FqEntry := ⟨0x1000#32, 1#32⟩
    let t (rest : List FqEntry) : State :=
      { s with cfg := { fqPresent := true }, fpuMode := .exception, fq := e :: rest }
    let u : State := { s with cfg := { fqPresent := true }, fpuQueue := [addWork] }
    let clear (s : State) : State := { s with storeBarrierPending := false }
    let v : State := { s with cfg := { fqPresent := true, memoryMap := [⟨[], 0x2000, 8, .rom⟩] }, fq := [e] }
    let a (s : State) : Word := effectiveAddress s 8#5 (.imm 0#13)
    (efOn v = true ∧ (∀ r, v.fpuMode ≠ .pending r) ∧ v.fpuQueue = [] ∧ v.psr.s = true ∧ v.fq = e :: [] ∧
      StoreAt v (.readOnly 0x2000) 0x0B#8 (a v) .word (clear v) ∧
        StoreAt v (.readOnly 0x2000) 0x0B#8 (a v) .dword (clear v)) ∧
    (efOn s = true ∧ (∀ r, s.fpuMode ≠ .pending r) ∧ s.fpuQueue = [] ∧ s.cfg.fqPresent = false ∧ s.psr.s = true ∧
      (a s).toNat % 8 = 0 ∧ StoreAt s (.memory 0x2000) 0x0B#8 (a s) .word (clear s) ∧ StoreAt s (.memory 0x2000) 0x0B#8 (a s) .dword (clear s)) ∧
    (∀ rest, efOn (t rest) = true ∧ (∀ r, (t rest).fpuMode ≠ .pending r) ∧ (t rest).fpuQueue = [] ∧
      (t rest).cfg.fqPresent = true ∧ (t rest).fq = e :: rest) ∧
    StoreAt (t []) (.memory 0x2000) 0x0B#8 (a (t [])) .dword (clear (t [])) ∧
    (efOn u = true ∧ (∀ r, u.fpuMode ≠ .pending r) ∧ StoreAt u (.memory 0x2000) 0x0B#8 (a u) .word (clear u) ∧
      Independent u (fun x => x.touches 13#5) ∧ StoreAt u (.memory 0x2000) 0x0B#8 (a u) .dword (clear u) ∧ (14#5).toNat % 2 = 0 ∧
        Independent u (fun x => x.touches 14#5 || x.touches 15#5)) := by
  unfold Independent
  exact ⟨⟨by decide, not_pending (by decide), by decide, by decide, by decide, storePlain (plainAt 0x2000 (by decide)),
    storePlain (plainAt 0x2000 (by decide))⟩, ⟨by decide, not_pending (by decide), by decide, by decide, by decide, by decide, storePlain (plain (by decide)),
    storePlain (plain (by decide))⟩, fun rest => ⟨rfl, not_pending (.inr rfl), rfl, rfl, rfl⟩, storePlain (plain (by decide)), by decide,
    not_pending (by decide), storePlain (plain (by decide)), by decide, storePlain (plain (by decide)), by decide⟩

/-- An exception pending; the fp_exception state; an odd rd with the FPU executing; each kind of instruction. -/
theorem test_witness_FloatingSequence :
    let s := memStart
    let t (m : FpuMode) : State := { s with cfg := { fqPresent := true }, fpuMode := m }
    let a (s : State) : Nat := (effectiveAddress s 8#5 (.imm 0#13)).toNat
    efOn (t (.pending ⟨3#3, none⟩)) = true ∧ a (t (.pending ⟨3#3, none⟩)) % 8 = 0 ∧ efOn (t .exception) = true ∧
      (t .exception).fpuMode = .exception ∧ a (t .exception) % 4 = 0 ∧ isFbfcc (.fba true 0#22) = true ∧
        Instr.wellFormed (.fba true 0#22) = true ∧ isFpopWord (encode (.fadds 0#5 0#5 0#5)) = true ∧
          isFpopWord (encode (.fpop2Unassigned 0#5 0#5 0#9 0#5)) = true ∧ s.cfg.reservedOpfIllegal = false ∧
            Instr.wellFormed (.fpop2Unassigned 0#5 0#5 0#9 0#5) = true ∧ s.psr.s = true ∧ efOn s = true ∧
              s.fpuMode = .execute ∧ s.fpuQueue = [] ∧ s.cfg.misalignedFregTraps = true ∧ (31#5).toNat % 2 = 1 := by
  decide

/-- An FPop in front that is none or that the FPU does not implement, a move, a comparison and an arithmetic one with aligned and
misaligned registers; each event; nonstandard mode; addresses and a branch that wait. -/
theorem test_witness_FloatingQueue :
    let s : State :=
      { memStart with
        cfg := { fqPresent := true, nsBehaviour := .implementationDefined }, fpuQueue := [addWork, compareWork] }
    let t : State := { s with fsr := { s.fsr with ns := true } }
    let odd : FpWork := { addWork with op := .add .double, rd := 31#5 }
    s.fpuMode = .execute ∧ s.fpuQueue = addWork :: [compareWork] ∧
      ({ addWork with op := .unassigned true } : FpWork).op = .unassigned true ∧
      ({ addWork with implemented := false } : FpWork).implemented = false ∧ addWork.implemented = true ∧
      (∀ b, addWork.op ≠ .unassigned b) ∧
        ({ addWork with op := .move } : FpWork).op = .move ∧ ¬NonstandardMode s ∧ NonstandardMode t ∧
          FregsAligned s (addWork.sources ++ addWork.results) ∧ ¬FregsAligned s (odd.sources ++ odd.results) ∧
            (0x1F#5 &&& s.fsr.tem = 0#5 ∧ 0x01#5 &&& ({ s.fsr with tem := 1#5 } : Fsr).tem ≠ 0#5) ∧
              FpuReady s ∧ (effectiveAddress s 8#5 (.imm 4#13)).toNat % 4 = 0 ∧
                (effectiveAddress s 8#5 (.imm 0#13)).toNat % 8 = 0 ∧ (30#5).toNat % 2 = 0 ∧ s.psr.s = true ∧
                  Instr.wellFormed (.fbo false 0#22) = true ∧ isFbfcc (.fbo false 0#22) = true ∧
                    addWork.touches 12#5 = true ∧ compareWork.compares = true := by
  unfold NonstandardMode FregsAligned FpuReady
  decide

theorem test_witness_DisabledUnitsTrap :
    let s := startWith (startPsr 0#4 false) 0#32 []
    efOn s = false ∧ usesFpu (.fadds 0#5 0#5 0#5) = true ∧ usesFpu (.fpop1Unassigned 0#5 0#5 0#9 0#5) = true ∧
      Instr.wellFormed (.fpop1Unassigned 0#5 0#5 0#9 0#5) = true ∧ s.cfg.reservedOpfIllegal = false ∧
        usesFpu (.stdfq 8#5 (.imm 0#13)) = true ∧ s.psr.s = true ∧ ecOn s = false ∧
          usesCp (.cba true 0#22) = true ∧ usesCp (.stdcq 8#5 (.imm 0#13)) = true := by decide

/-- Without a queue and with one that is full, whose front FPop can and cannot end; illegal words and not. -/
theorem test_witness_FloatingMovesAndUnassigned :
    let t (w : FpWork) : State := { memStart with cfg := { fqPresent := true }, fpuQueue := [w] }
    let ended (w : FpWork) : FpuMode := (fpEndWork ((t w).fpuQueue.length + 1 - (t w).cfg.fqDepth) (t w)).fpuMode
    FpuReady memStart ∧ memStart.cfg.fqPresent = false ∧ memStart.cfg.reservedOpfIllegal = false ∧
      ({ reservedOpfIllegal := true } : Config).reservedOpfIllegal = true ∧ FpuReady (t addWork) ∧
        (t addWork).cfg.fqPresent = true ∧ ended addWork = .execute ∧
          ended { addWork with op := .unassigned false } = .pending ⟨3#3, none⟩ ∧
            ended { addWork with implemented := false } = .pending ⟨3#3, none⟩ ∧
              unimplemented memStart.cfg 0x91A00024 = false ∧
                unimplemented { unimplemented := [(0xFFFFFFFF#32, 0x91A00024#32)] } 0x91A00024 = true := by
  unfold FpuReady
  decide

/-- Aligned and misaligned operands; what the FPU does of its own; an exception enabled and not; nonstandard
mode; a queue. -/
theorem test_witness_FloatingArithmetic :
    let s (tem : BitVec 5) : State := fpStart 0 tem []
    let t (e : FpuEvent) : State := { s 0 with now := { Inputs.quiet with fpu := some e } }
    let u : State :=
      { s 0 with cfg := { nsBehaviour := .implementationDefined }, fsr := { (s 0).fsr with ns := true } }
    FpuReady (s 0) ∧ (s 0).cfg.fqPresent = false ∧ FregsAligned (s 0) [(.double, 30#5), (.quad, 28#5)] ∧
      ¬FregsAligned (s 0) [(.double, 1#5)] ∧ ¬FregsAligned (s 0) [(.quad, 2#5)] ∧
        (t .unfinished).now.fpu = some .unfinished ∧ (t .hardwareError).now.fpu = some .hardwareError ∧
          (s 0).now.fpu = none ∧ 2#5 &&& (s 2).fsr.tem ≠ 0#5 ∧ 2#5 &&& (s 0).fsr.tem = 0#5 ∧
            ¬NonstandardMode (s 0) ∧ NonstandardMode u ∧ FpuReady u ∧
              FpuReady { s 0 with cfg := { fqPresent := true } } ∧
                unimplemented (s 0).cfg (s 0).instruction = false ∧ (0x0C#5).getLsbD 3 = true ∧
                  (∀ j ∈ [4], (0x0C#5).getLsbD j = false) ∧ (3#5).toNat < 4 ∧
                  unimplemented { unimplemented := [(0#32, 0#32)] } (s 0).instruction = true := by
  unfold FpuReady FregsAligned NonstandardMode
  decide

/-- 1, 2, -1, the smallest and zero as numbers of the single format. -/
theorem standsFor_numbers :
    StandsFor .single 0x3F800000 false 1 ∧ StandsFor .single 0x40000000 false 2 ∧
      StandsFor .single 0xBF800000 true (-1) ∧ StandsFor .single 0x00000001 false ((2 : ℝ) ^ (-149 : Int)) ∧
        StandsFor .single 0 false 0 ∧ StandsFor .single 0x80000000 true 0 :=
  ⟨⟨0x800000, -23, by decide, by norm_num⟩, ⟨0x800000, -22, by decide, by norm_num⟩,
    ⟨0x800000, -23, by decide, by norm_num⟩, ⟨1, -149, by decide, by norm_num⟩, ⟨0, -149, by decide, by norm_num⟩,
    ⟨0, -149, by decide, by norm_num⟩⟩

/-- Numbers that are equal, less and greater; the infinities; NaNs. -/
theorem test_witness_FloatingCompares :
    (StandsFor .single 0x3F800000 false 1 ∧ StandsFor .single 0x40000000 false 2 ∧ (1 : ℝ) < 2) ∧
      (StandsFor .single 0 false 0 ∧ StandsFor .single 0x80000000 true 0) ∧
        fpUnpack .single 0x7F800000 = .inf false ∧ fpUnpack .single 0xFF800000 = .inf true ∧
          fpUnpack .single 0x7FC00000 = .nan false 0x7FC00000 ∧ fpUnpack .single 0x7F800001 = .nan true 0x7F800001 := by
  obtain ⟨h1, h2, -, -, h5, h6⟩ := standsFor_numbers
  exact ⟨⟨h1, h2, by norm_num⟩, ⟨h5, h6⟩, by decide, by decide, by decide, by decide⟩

/-- The smallest number, minus zero and 1; infinities; sums, differences and products that are zero; quotients of
and by zero. -/
theorem test_witness_ExactFloatingResults :
    (fpUnpack .single 0x00000001 = .num false 1 (-149) ∧ fpUnpack .single 0x80000000 = .num true 0 (-149) ∧
      fpUnpack .double 0x3FF0000000000000 = .num false 0x10000000000000 (-52)) ∧
    (fpUnpack .single 0x7F800000 = .inf false ∧ fpUnpack .single 0xFF800000 = .inf true) ∧
    (StandsFor .single 0x3F800000 false 1 ∧ StandsFor .single 0xBF800000 true (-1) ∧ (1 : ℝ) + -1 = 0 ∧
      StandsFor .single 0 false 0 ∧ StandsFor .single 0x80000000 true 0 ∧ (1 : ℝ) ≠ 0) := by
  obtain ⟨h1, -, h3, -, h5, h6⟩ := standsFor_numbers
  exact ⟨by decide, by decide, h1, h3, by norm_num, h5, h6, by norm_num⟩

/-- 1 and 2, the smallest number; integers; 1 and the smallest number truncated, 2^31 just out of range and -2^31
just in it, an infinity, a NaN of either sign. -/
theorem test_witness_RoundedResults :
    (StandsFor .single 0x3F800000 false 1 ∧ StandsFor .single 0x40000000 false 2 ∧ (1 : ℝ) + 2 ≠ 0 ∧
      (1 : ℝ) - 2 ≠ 0 ∧ (1 : ℝ) * 2 ≠ 0 ∧ (0 : ℝ) < 1) ∧
    StandsFor .single 0x00000001 false ((2 : ℝ) ^ (-149 : Int)) ∧ ((1#32 : Word) ≠ 0#32) ∧
    (StandsFor .single 0x4F000000 false (2 ^ 31) ∧ (2 ^ 31 : Int) = ⌊|(2 ^ 31 : ℝ)|⌋ ∧
      StandsFor .single 0xCF000000 true (-(2 ^ 31)) ∧ (-(2 ^ 31) : Int) = -⌊|(-(2 ^ 31) : ℝ)|⌋) ∧
    (fpUnpack .single 0xFF800000 = .inf true ∧ fpUnpack .single 0xFFC00000 = .nan false 0xFFC00000 ∧
      0xFFC00000 / FpFormat.single.signBit % 2 = true.toNat ∧
        0x7FC00000 / FpFormat.single.signBit % 2 = false.toNat) := by
  obtain ⟨h1, h2, -, h4, -, -⟩ := standsFor_numbers
  have h : |(2 ^ 31 : ℝ)| = ((2 ^ 31 : Int) : ℝ) := by norm_num
  have k : |(-(2 ^ 31) : ℝ)| = ((2 ^ 31 : Int) : ℝ) := by norm_num
  exact ⟨⟨h1, h2, by norm_num, by norm_num, by norm_num, by norm_num⟩, h4, by decide,
    ⟨⟨0x800000, 8, by decide, by norm_num⟩, by rw [h, Int.floor_intCast], ⟨0x800000, 8, by decide, by norm_num⟩,
      by rw [k, Int.floor_intCast]⟩, by decide⟩

/-- Signaling and quiet NaNs beside numbers; a negative number; infinities; zeroes. -/
theorem test_witness_NanResults :
    (fpUnpack .single 0x7F800001 = .nan true 0x7F800001 ∧ fpUnpack .single 0x7FC00000 = .nan false 0x7FC00000 ∧
      (∀ k, fpUnpack .single 0x7FC00000 ≠ .nan true k) ∧ (∀ q k, fpUnpack .single 0x3F800000 ≠ .nan q k) ∧
        FpFormat.single ≠ .double) ∧
    (StandsFor .single 0xBF800000 true (-1) ∧ (-1 : ℝ) < 0 ∧ fpUnpack .single 0xFF800000 = .inf true ∧
      fpUnpack .single 0x7F800000 = .inf false ∧ StandsFor .single 0 false 0 ∧
        StandsFor .single 0x80000000 true 0) := by
  obtain ⟨-, -, h3, -, h5, h6⟩ := standsFor_numbers
  refine ⟨⟨by decide, by decide, fun k h => ?_, fun q k h => ?_, by decide⟩, h3, by norm_num, by decide, by decide,
    h5, h6⟩
  · exact absurd (show FpValue.nan false 0x7FC00000 = .nan true k from h) (by simp)
  · exact absurd (show FpValue.num false 0x800000 (-23) = .nan q k from h) (by simp)

theorem test_witness_CoprocessorResults :
    let s := cpStart
    let t : State := { s with now := { Inputs.quiet with cpException := true } }
    let u : State := { s with cp := { s.cp with cq := [] } }
    let v : State := { s with cpPending := true }
    let d : State := { s with now := { Inputs.quiet with cpDeferred := some .op1 } }
    let io : State :=
      { s with cfg := { cpPresent := true, cqPresent := true, memoryMap := [⟨[], 0x2000, 8, .io⟩] } }
    let clear (s : State) : State := { s with storeBarrierPending := false }
    let a (s : State) (v : BitVec 13) : Word := effectiveAddress s 8#5 (.imm v)
    (ecOn s = true ∧ s.cpPending = false ∧ s.now.cpException = false ∧ s.psr.s = true ∧ s.cfg.cqPresent = true ∧
      s.cp.cq = (1#32, 2#32) :: [] ∧ LoadAt s (.memory 0x2004) 0x0B#8 (a s 4) .word s ∧
        LoadAt s (.memory 0x2000) 0x0B#8 (a s 0) .dword s ∧
          StoreAt s (.memory 0x2004) 0x0B#8 (a s 4) .word (clear s) ∧
            StoreAt s (.memory 0x2000) 0x0B#8 (a s 0) .dword (clear s)) ∧
    (ecOn io = true ∧ io.cpPending = false ∧ io.now.cpException = false ∧
      LoadAt io (.io 0x2004) 0x0B#8 (a io 4) .word io ∧
        StoreAt io (.io 0x2000) 0x0B#8 (a io 0) .dword (clear io)) ∧
    (ecOn t = true ∧ t.cpPending = false ∧ t.now.cpException = true) ∧ (ecOn u = true ∧ u.cp.cq = []) ∧
    (ecOn v = true ∧ v.cpPending = true ∧ (a v 4).toNat % 4 = 0 ∧ (a v 0).toNat % 8 = 0) ∧
    d.now.cpDeferred = some .op1 ∧ d.cfg.cpPresent = true ∧ d.cfg.cqPresent = true := by
  exact ⟨⟨by decide, by decide, by decide, by decide, by decide, by decide, loadPlain (plain (by decide)),
    loadPlain (plain (by decide)), storePlain (plain (by decide)), storePlain (plain (by decide))⟩,
    ⟨by decide, by decide, by decide, loadPlain (plainAt 0x2004 (by decide)),
      storePlain (plainAt 0x2000 (by decide))⟩, by decide⟩

/-- The first and the last address of each register, the upper address bits set, and the first place of none. -/
theorem test_witness_MmuRegisterAccess :
    let s :=
      withRegs physicalStart
        [(1#5, 0xFFFFF0FC#32), (2#5, 0x100#32), (3#5, 0x200#32), (4#5, 0x300#32), (5#5, 0x4FC#32), (6#5, 0x500#32)]
    let a (n : RegNum) : Nat := (reg s n + reg s 0#5).toNat
    s.psr.s = true ∧ s.now.machineCheck = none ∧ asiKind s.cfg 0x04#8 = .mmuRegister ∧
      (∀ n ∈ [0#5, 1#5, 2#5, 3#5, 4#5, 5#5, 6#5], a n % 4 = 0) ∧ a 0 / 256 % 16 = 0 ∧ a 1 / 256 % 16 = 0 ∧
        a 2 / 256 % 16 = 1 ∧ a 3 / 256 % 16 = 2 ∧ a 4 / 256 % 16 = 3 ∧ a 5 / 256 % 16 = 4 ∧
          5 ≤ a 6 / 256 % 16 ∧ a 6 % 8 = 0 ∧ (30#5).toNat % 2 = 0 ∧
            ({ oddRdLddTraps := false } : Config).oddRdLddTraps = false ∧ s.blockByte = false ∧
              s.blockWord = false := by decide

/-- The tables of vector T110: where the entry of a level stands, the PTDs, and the state with this word in place
of the entry of level `k`. -/
def walkPlace (i : Nat) : Nat := [0x10004, 0x20048, 0x21034, 0x21114].getD i 0
def walkEntry (k : Nat) (last : Word) (i : Nat) : Word :=
  if i = k then last else [0x2001#32, 0x2101#32, 0x2111#32].getD i 0#32
def walkStart (k : Nat) (last : Word) : State :=
  let s := mmuStart 0#32
  { s with mem := s.mem.write32 (walkPlace k) last }

/-- The levels above `k` hold the PTDs, and level `k` the word; all places are those of the statements. -/
def walks (s : State) (va k : Nat) (last : Word) : Bool :=
  let e := walkEntry k last
  let table (i : Nat) (index : Nat) : Nat := ((e i).toNat / 4 * 64 + index * 4) % 2 ^ 36
  let place (i : Nat) : Nat :=
    if i = 0 then (s.mmu.ctp.toNat * 64 + s.mmu.context.toNat * 4) % 2 ^ 36
    else if i = 1 then table 0 (va / 2 ^ 24)
    else if i = 2 then table 1 (va / 2 ^ 18 % 64)
    else table 2 (va / 2 ^ 12 % 64)
  s.mmu.pdc.isEmpty &&
    (List.range (k + 1)).all (fun i => decide (place i = walkPlace i) && wordAt s (place i) == e i) &&
      (List.range k).all fun i => tableReadable s.cfg (place i) && (e i).toNat % 4 == 1

/-- The same behind a PDC that holds the PTD of level 1, whose entry in the tables is invalid, and a PTE of another
page; the implementation brings the other PTDs into the PDC. -/
def cachedWalk (last : Word) : State :=
  let s := walkStart 3 last
  { s with
    cfg := { s.cfg with pdcCachesPtds := true }
    mem := s.mem.write32 0x20048 0#32
    mmu :=
      { s.mmu with
        pdc := [⟨1#32, 0x12346000#32, 3, 0x0ABCDE8E#32, 0x21118⟩, ⟨1#32, 0x12FFF000#32, 1, 0x2101#32, 0x20048⟩] } }

/-- No PTE of that PDC translates 12345678, and the walk uses the PTD of level 1 from it, the rest from the tables. -/
def walksCached (last : Word) : Bool :=
  let s := cachedWalk last
  let e := walkEntry 3 last
  let width (level : Nat) : Nat := [32, 24, 18].getD level 12
  let same (y : PdcEntry) : Bool := y.va.toNat / 2 ^ width y.level == 0x12345678 / 2 ^ width y.level
  let cached (i : Nat) : Option PdcEntry :=
    s.mmu.pdc.find? fun y => y.level == i && y.entry.toNat % 4 == 1 && y.context == s.mmu.context && same y
  s.mmu.pdc.all (fun y => !(y.entry.toNat % 4 == 2 && same y)) &&
    ((cached 1).map PdcEntry.entry == some (e 1) && wordAt s (walkPlace 1) != e 1) &&
      ([0, 2, 3].all fun i => cached i == none && tableReadable s.cfg (walkPlace i) && wordAt s (walkPlace i) == e i) &&
        [0, 1, 2].all fun i => (e i).toNat % 4 == 1

/-- A PTE at each level, with and without a permission; an invalid, a reserved entry and a PTD at level 3; a
table that cannot be read, and bus errors of the walks of a fetch and of a data access; a cached PTD in place of an
invalid entry of the tables, before a PTE that allows the access and before one that does not. -/
theorem test_witness_TranslationWalksTables :
    let ok (k : Nat) (last : Word) (fits : Bool) : Bool :=
      let s := walkStart k last
      walks s 0x12345678 k last && tableReadable s.cfg (walkPlace k) &&
        (!fits || (last.toNat / 256 * 4096) % 2 ^ ([32, 24, 18, 12].getD k 0) == 0)
    let small : Config := { mmuPresent := true, memoryMap := [⟨[], 0, 0x20000, .realMemory⟩] }
    let unread : State := { walkStart 1 0#32 with cfg := small }
    let ft (e : Word) : BitVec 3 := permissionFault (accessType 0x0A#8 true) (e.extractLsb' 2 3)
    ok 0 0xA000008E true = true ∧ ok 1 0x0AB0008E true = true ∧ ok 2 0x0ABCC08E true = true ∧
      ok 3 0x0ABCDE8E true = true ∧ ft 0x0ABCDE8E = 0#3 ∧ ok 3 0x0ABCDE82 true = true ∧ ft 0x0ABCDE82 = 2#3 ∧
        ok 0 0 false = true ∧ ok 3 0 false = true ∧ ok 0 3 false = true ∧ ok 3 3 false = true ∧
          ok 3 0x2001 false = true ∧ walks unread 0x12345678 1 0 = true ∧
            tableReadable unread.cfg (walkPlace 1) = false ∧
              (let struck (x : MachineCheck) : State :=
                { walkStart 3 0#32 with now := { Inputs.quiet with machineCheck := some x } }
              walks (struck (.instructionTableError 3#2)) 0x12345678 3 0 = true ∧
                (struck (.instructionTableError 3#2)).now.machineCheck =
                  some (.instructionTableError (BitVec.ofNat 2 3)) ∧
                  walks (struck (.dataTableError 3#2)) 0x12345678 3 0 = true ∧
                    (struck (.dataTableError 3#2)).now.machineCheck =
                      some (.dataTableError (BitVec.ofNat 2 3))) ∧
                walksCached 0x0ABCDE8E = true ∧ walksCached 0x0ABCDE82 = true := by decide

/-- The walk that reads a cached PTD in place of an invalid entry of the tables, and what the PDC then holds
(21_reference_mmu.md R176). -/
theorem test_cached_ptd_walk :
    (match translateCached (cachedWalk 0x0ABCDE8E#32) .first 0x0A#8 0x12345678#32 false with
      | .ok pa level t =>
        pa == 0x0ABCDE678#36 && level == 3 && t.mmu.pdc.map (fun x => (x.level, x.entry)) ==
          [(3, 0x0ABCDEAE#32), (2, 0x2111#32), (0, 0x2001#32), (3, 0x0ABCDE8E#32), (1, 0x2101#32)]
      | .fault _ _ _ => false) = true := by decide

/-- A load that its page refuses, a store, with NF clear and set; the same in ASI 9; a fetch in either mode; an
internal error; an access bus error behind a translation that succeeds. -/
theorem test_witness_MmuFaults :
    let s (pte : Word) (nf : Bool) (x : Option MachineCheck) : State :=
      let s := withRegs (mmuStart pte) [(1#5, 0x12345678#32)]
      { s with mmu := { s.mmu with nf := nf }, now := { Inputs.quiet with machineCheck := x } }
    let address (s : State) : Word := effectiveAddress s 1#5 (.imm 0#13)
    let refused (nf : Bool) : Bool :=
      let s := s 0x0ABCDE92#32 nf none
      translating s && decide ((address s).toNat % 4 = 0) && faults (translate s .first 0x0B#8 (address s) false) &&
        faults (translate { s with storeBarrierPending := false } .first 0x0B#8 (address s) true) && s.mmu.nf == nf
    let refused9 (nf : Bool) : Bool :=
      let s := s 0x0ABCDE82#32 nf none
      let a := reg s 1#5 + reg s 0#5
      translating s && s.now.machineCheck == none && decide (a.toNat % 4 = 0) && s.psr.s && s.mmu.nf == nf &&
        faults (translate s .first 0x09#8 a false) &&
        faults (translate { s with storeBarrierPending := false } .first 0x09#8 a true)
    let fetches (sup nf : Bool) : Bool :=
      let s := s 0x0ABCDE82#32 nf none
      let s : State := { s with pc := 0x12345678#32, psr := { s.psr with s := sup } }
      translating s && s.now.machineCheck == none && s.psr.s == sup && s.mmu.nf == nf &&
        faults (translate s .fetch (if sup then 0x09#8 else 0x08#8) s.pc false) &&
        decide (s.mode = .execute) && decide ((takeInputs s).now = Inputs.quiet) && !s.annul &&
        match fetch (turn (takeInputs s)) with
        | .fault _ _ => sup || !nf
        | .ok _ _ => !sup && nf
    let t := s 0x0ABCDE8E#32 false (some .dataInternalError)
    let u := s 0x0ABCDE8E#32 false (some (.dataAccessError false))
    refused false = true ∧ refused true = true ∧ refused9 false = true ∧ refused9 true = true ∧ fetches true true = true ∧ fetches true false = true ∧
      fetches false false = true ∧ fetches false true = true ∧ (translating t = true ∧ (address t).toNat % 4 = 0 ∧
      t.now.machineCheck = some .dataInternalError ∧ t.mmu.nf = false) ∧
        (translating u = true ∧ (address u).toNat % 4 = 0 ∧ u.now.machineCheck = some (.dataAccessError false) ∧
          u.mmu.nf = false ∧ faults (translate u .first 0x0B#8 (address u) false) = false) := by decide

/-- A cached PTE of the context with its R bit set and clear, and a supervisor page of another context, in front
of the cache and behind one of another page, and one that refuses the access; the address spaces of a machine with
the MMU, word and other accesses to the cache-flush and the flush and probe spaces; a flush and probes of every
type; tables with a PTE, a missing PTD and a reserved entry, and memory errors of a probe. -/
theorem test_witness_CacheFlushAndProbe :
    let x (e : Word) (c : Word) : PdcEntry := ⟨c, 0x12345000#32, 3, e, 0x21114⟩
    let s (x : PdcEntry) : State := let s := mmuStart x.entry; { s with mmu := { s.mmu with pdc := [x] } }
    let other : PdcEntry := ⟨1#32, 0x12346000#32, 3, 0x0ABCDE8E#32, 0x21118⟩
    let behind (x : PdcEntry) : State := { s x with mmu := { (s x).mmu with pdc := [other] ++ x :: [] } }
    let hitsAt (x : PdcEntry) (ft : BitVec 3) : Bool :=
      let s := s x
      (behind x).mmu.pdc == [other, x] && decide (other.va.toNat / 2 ^ 12 ≠ 0x12345678 / 2 ^ 12) &&
      decide (x.entry.toNat % 4 = 2) && decide (x.va.toNat / 2 ^ 12 = 0x12345678 / 2 ^ 12) &&
        (x.context == s.mmu.context || s.cfg.pdcIgnoresContext && decide (6 ≤ (x.entry.extractLsb' 2 3).toNat)) &&
          decide ((x.entry.toNat / 256 * 4096) % 2 ^ 12 = 0) &&
            permissionFault (accessType 0x0B#8 false) (x.entry.extractLsb' 2 3) == ft
    let hits (x : PdcEntry) : Bool := hitsAt x 0#3
    let space (asi : BitVec 8) (kind : AsiKind) : Bool :=
      let s := withRegs physicalStart [(1#5, 0x12345000#32)]
      let a := (reg s 1#5 + reg s 0#5).toNat
      s.cfg.mmuPresent && s.cfg.asiDecodeMask == 0xFF#8 && s.cfg.asiMap.lookup asi == none && s.psr.s &&
        s.now.machineCheck == none && asiKind s.cfg asi == kind && decide (a % 8 = 0) && !s.blockByte && !s.blockWord
    space 0x03#8 .flushProbe = true ∧ space 0x10#8 .cacheFlush = true ∧ space 0x1C#8 .cacheFlush = true ∧
      space 0x04#8 .mmuRegister = true ∧ space 0x2F#8 (.physical 0xF#4 true) = true ∧ (30#5).toNat % 2 = 0 ∧
        hitsAt (x 0x0ABCDE92#32 1#32) 2#3 = true ∧
    let t (k : Nat) (last : Word) (kind : Nat) : State :=
      withRegs (walkStart k last) [(1#5, 0x12345000#32 + BitVec.ofNat 32 (kind * 256))]
    let probes (k : Nat) (last : Word) (kind : Nat) : Bool :=
      let t := t k last kind
      let va := (reg t 1#5 + reg t 0#5).toNat
      t.psr.s && t.now.machineCheck == none && asiKind t.cfg 0x03#8 == .flushProbe && decide (va % 4 = 0) &&
        decide (va / 256 % 16 = kind) && walks t va k last && tableReadable t.cfg (walkPlace k)
    (translating (s (x 0x0ABCDE0E#32 1#32)) = true ∧ (s (x 0x0ABCDE0E#32 1#32)).mmu.pdc = x 0x0ABCDE0E#32 1#32 :: [] ∧
      ({ uncacheableIsIo := true } : Config).uncacheableIsIo = true ∧ (0x0ABCDE0E#32 : Word).getLsbD 7 = false ∧
        regionKind (s (x 0x0ABCDE0E#32 1#32)).cfg 0x0B#8 0x0ABCDE678 ≠ .unmapped ∧ (0x0ABCDE8E#32 : Word).getLsbD 7 = true) ∧
    hits (x 0x0ABCDE8E#32 1#32) = true ∧ hits (x 0x0ABCDEAE#32 1#32) = true ∧ hits (x 0x0ABCDE9E#32 7#32) = true ∧
      probes 3 0x0ABCDE8E#32 0 = true ∧ probes 3 0x2001#32 0 = true ∧ probes 2 3#32 1 = true ∧
        probes 1 0#32 2 = true ∧ probes 0 0#32 3 = true ∧ probes 3 0x0ABCDE8E#32 4 = true ∧ probes 1 0#32 0 = true ∧
          probes 3 0#32 15 = true ∧
            (let struck (k : Nat) (kind : Nat) : Bool :=
              let t := t k 0#32 kind
              let t := { t with
                now := { Inputs.quiet with machineCheck := some (.dataTableError (BitVec.ofNat 2 k)) } }
              let va := (reg t 1#5 + reg t 0#5).toNat
              t.psr.s && asiKind t.cfg 0x03#8 == .flushProbe && decide (va % 4 = 0 ∧ va / 256 % 16 = kind) &&
                walks t va k 0#32 && decide (kind + k ≤ 3 ∨ kind = 4)
            struck 3 0 = true ∧ struck 0 0 = true ∧ struck 0 3 = true ∧ struck 2 4 = true) := by decide

/-- A probe of each type that the PDC serves, by the second of its entries: what it delivers, and the same once
the draw keeps the entry. -/
theorem test_witness_probe_hits :
    let page : PdcEntry := ⟨1#32, 0x12345000#32, 3, 0x0ABCDE8E#32, 0x21114⟩
    let other : PdcEntry := ⟨1#32, 0x22346000#32, 1, 0x2101#32, 0x21118⟩
    let x (kind : Nat) : PdcEntry :=
      if kind = 0 ∨ kind = 4 then page else ⟨1#32, 0x12345000#32, 3 - kind, 0x2111#32, 0x20048⟩
    let s (xs : List PdcEntry) : State :=
      let s := withRegs (mmuStart 0x0ABCDE8E#32) [(1#5, 0x12345000#32)]
      { s with mmu := { s.mmu with pdc := xs } }
    let va (kind : Nat) : Word := 0x12345000#32 + BitVec.ofNat 32 (kind * 256)
    let fits (kind : Nat) (y : PdcEntry) : Bool :=
      let width := [32, 24, 18, 12].getD y.level 12
      (if kind = 4 then y.entry.toNat % 4 == 2 else y.level == 3 - kind) &&
        y.va.toNat / 2 ^ width == (va kind).toNat / 2 ^ width && y.context == 1#32
    ([0, 1, 2, 3, 4].all fun kind =>
      (va kind).toNat / 256 % 16 == kind && !fits kind other && fits kind (x kind) &&
        (probeCached (s [other, x kind]) .first (va kind)).1 == (x kind).entry) = true ∧
    ((s [page]).psr.s = true ∧ asiKind (s [page]).cfg 0x03#8 = .flushProbe ∧ (reg (s [page]) 1#5).toNat % 4 = 0) ∧
    (Config.pdcReplaced 0 0 = false → (pdcEvict (s [page])).mmu.pdc = [] ++ page :: []) := by
  refine ⟨by decide, by decide, fun h => ?_⟩
  show (([((⟨1#32, 0x12345000#32, 3, 0x0ABCDE8E#32, 0x21114⟩ : PdcEntry), 0)] : List (PdcEntry × Nat)).filter fun y => !Config.pdcReplaced 0 y.2).map Prod.fst = _
  simp [h]

/-- A state whose next fetch meets this machine check, or none. -/
def checkStart (x : Option MachineCheck) (w : Word) (p : Psr) (c : Config) : State :=
  let s := (startWith p 0#32 []).withFetchWord 32 w.toNat
  { s with cfg := c, inputs := [{ Inputs.quiet with machineCheck := x }] }

theorem checkStart_fetch {x : Option MachineCheck} {w : Word} {p : Psr} {c : Config} {u : State}
    (hu : u = turn (takeInputs (checkStart x w p c))) (hq : AccessQuiet u .fetch)
    (h : translating u = false ∧ u.cfg.ibufStale = false ∧
      regionKind u.cfg (fetchAsi u) u.pc.toNat = .realMemory ∧ u.mem.read32 u.pc.toNat = w) :
    fetch u = .ok w (turn (takeInputs (checkStart x w p c))) := by
  rw [fetch_plain u hq h.1 h.2.1 h.2.2.1, h.2.2.2, ← hu]

theorem fetches_word {s : State} {w : Word} (h : (match fetch s with | .ok x _ => x == w | _ => false) = true) :
    ∃ v, fetch s = .ok w v := by
  cases hf : fetch s with
  | ok x v =>
    rw [hf] at h
    exact ⟨v, by rw [eq_of_beq h]⟩
  | fault t v => rw [hf] at h; exact absurd h (by simp)

/-- Each machine check before a legal instruction, a privileged one in user mode, an illegal one, one of a unit
that is disabled and one that is unimplemented, the last without a machine check as well: an integer instruction,
RDPSR and RETT in user mode, an FPop and a CPop; the fetch leaves the state as it is; a translated fetch, of a SWAPA
with i = 1. -/
theorem test_witness_PrioritiesBeforeExecution :
    let p := startPsr 0#4 true
    let off := startPsr 0#4 false
    let user : Psr := { p with s := false }
    let meets (x : Option MachineCheck) (w : Word) (p : Psr) (c : Config) : Prop :=
      let s := checkStart x w p c
      let u := turn (takeInputs s)
      s.mode = .execute ∧ (takeInputs s).now = { Inputs.quiet with machineCheck := x } ∧ s.annul = false ∧
        fetch u = .ok w u ∧ u.psr = p
    let page : State :=
      { mmuStart 0x0ABCDE8E#32 with
        pc := 0x12345678#32, inputs := [{ Inputs.quiet with machineCheck := some .watchpointDetected }] }
    let watch := some MachineCheck.watchpointDetected
    let all : Config := { cpPresent := true, unimplemented := [(0#32, 0#32)] }
    (meets (some .rRegisterAccessError) 0x82004001 p {} ∧ meets watch 0x82004001 p {} ∧
      meets watch 0x91480000 user {} ∧ meets watch 0 p {} ∧ meets watch 0x99A10828 off {} ∧
        meets watch 0x81B04002 off {} ∧ meets watch 0x81DE200C p { flushImpl := .trapsUnimplementedFlush }) ∧
    (meets watch 0x82004001 p all ∧ meets none 0x82004001 p all ∧ meets none 0x91480000 user all ∧
      meets none 0x81C82000 { user with et := false } all ∧ meets none 0x99A10828 p all ∧
        meets watch 0x99A10828 off all ∧ meets none 0x81B04002 p all ∧ meets watch 0x81B04002 off all) ∧
    (page.mode = .execute ∧ (takeInputs page).now = { Inputs.quiet with machineCheck := watch } ∧ page.annul = false ∧
      translating page = true ∧ reads 0xCAFEBABE (.swapa 5#5 26#5 (.imm 0x1ABE#13)) = true ∧
        ∃ v, fetch (turn (takeInputs page)) = .ok 0xCAFEBABE v) ∧
    (unimplemented all 0x82004001 = true ∧ isFpopWord 0x82004001 = false ∧ isCpopWord 0x82004001 = false ∧
      isFpopWord 0x99A10828 = true ∧ isCpopWord 0x81B04002 = true ∧ usesFpu (.fadds 12#5 4#5 8#5) = true ∧
        usesCp (.cpop1 0#5 1#5 0#9 2#5) = true ∧ isPrivileged {} (.add 1#5 1#5 (.reg 1#5)) = false ∧
          isPrivileged {} (.rdpsr 8#5) = true ∧ isIllegal State.reset (.unimp 0#22) = true ∧
            isIllegal State.reset (.add 1#5 1#5 (.reg 1#5)) = false ∧
              reads 0x81C82000 (.rett 0#5 (.imm 0#13)) = true ∧ reads 0x81B04002 (.cpop1 0#5 1#5 0#9 2#5) = true ∧
                FpuReady memStart) := by
  refine ⟨⟨?_, ?_, ?_, ?_, ?_, ?_, ?_⟩, ⟨?_, ?_, ?_, ?_, ?_, ?_, ?_, ?_⟩,
    ⟨rfl, rfl, rfl, rfl, by decide, fetches_word (by decide)⟩, by unfold FpuReady; decide⟩ <;>
    exact ⟨by decide, by decide, by decide,
      checkStart_fetch rfl (by unfold AccessQuiet; decide) (by decide), by decide⟩

/-- Each machine check, with traps enabled and disabled, on a fetch, on a first and on a second access; the sizes;
memory free; a device's space, and one of physical memory; each unit enabled, both queues with an entry. -/
theorem test_witness_MachineChecks :
    let s (x : MachineCheck) (et : Bool) (c : Config) : State :=
      checkStart (some x) 0x82004001 { startPsr 0#4 true with et := et } c
    let meets (x : MachineCheck) (et : Bool) : Prop :=
      let s := s x et {}
      s.mode = .execute ∧ (takeInputs s).now = { Inputs.quiet with machineCheck := some x } ∧ s.annul = false ∧
        translating s = false ∧ s.cfg.mmuPresent = false ∧ (effectivePsr (takeInputs s)).et = et
    let on (x : MachineCheck) : Prop :=
      let s : State :=
        { memStart with
          cfg :=
            { asiMap := [(0x40#8, .device)], cpPresent := true, fqPresent := true, cqPresent := true
              fpLoadFaultValue := some 0#32 }
          fq := [addWork.entry], cp := { State.reset.cp with cq := [(1#32, 2#32)] }
          now := { Inputs.quiet with machineCheck := some x } }
      let t : State := { s with cfg := { mmuPresent := true } }
      let a (v : BitVec 13) : Nat := (effectiveAddress s 8#5 (.imm v)).toNat
      (∀ r, s.fpuMode ≠ .pending r) ∧ FpuReady s ∧ s.fpuQueue = [] ∧ ecOn s = true ∧ s.cpPending = false ∧
      s.now.cpException = false ∧ s.cfg.fqPresent = true ∧ s.fq = addWork.entry :: [] ∧ s.cfg.cqPresent = true ∧
      s.cp.cq = (1#32, 2#32) :: [] ∧ asiKind s.cfg 0x0B#8 = .normal ∧ plainPa s 0x0B#8 0x2000#32 = some 0x2000 ∧
      asiKind t.cfg 0x2F#8 = .physical 0xF#4 true ∧ translating t = false ∧
      plainPa t 0x2F#8 0xFFFFFFF8#32 = some 0xFFFFFFFF8 ∧
      regionKind t.cfg (decodedAsi t.cfg 0x2F#8) 0xFFFFFFFF8 = .realMemory ∧
      s.now.machineCheck = some x ∧ translating s = false ∧ s.cfg.mmuPresent = false ∧ a 6 % 2 = 0 ∧ a 4 % 4 = 0 ∧
        a 0 % 8 = 0 ∧ regionKind s.cfg 0x0B#8 (a 7) = .realMemory ∧ s.blockByte = false ∧ s.blockWord = false ∧
          (0#5).toNat % 2 = 0 ∧ (30#5).toNat % 2 = 0 ∧ s.psr.s = true ∧ asiKind s.cfg 0x40#8 = .device ∧
            (reg s 8#5 + reg s 0#5).toNat % 4 = 0
    (meets .dataStoreError true ∧ meets .dataStoreError false ∧ meets (.implementationDependent 0) true ∧
      meets (.implementationDependent 31) false ∧ meets .instructionAccessError true ∧
        meets .instructionAccessException true ∧ meets .instructionAccessMmuMiss true) ∧
    on (.dataAccessError false) ∧ on (.dataAccessException false) ∧ on .dataAccessMmuMiss ∧
      on (.dataAccessError true) ∧ on (.dataAccessException true) := by
  unfold FpuReady
  refine ⟨⟨?_, ?_, ?_, ?_, ?_, ?_, ?_⟩, ?_, ?_, ?_, ?_, ?_⟩
  case refine_1 | refine_2 | refine_3 | refine_4 | refine_5 | refine_6 | refine_7 => decide
  all_goals exact ⟨not_pending (by decide), by decide⟩

end Sys2Proof.Tests
end

section
/-! The r registers and the windows (10_state.md R20 to R24): where the windows overlap and where they do not. -/

namespace Sys2Proof.Machine

/-! ### The windowed file -/

theorem ne_zero_of_windowed {n : RegNum} (hn : 8 ≤ n.toNat) : n ≠ 0#5 := by
  rintro rfl
  simp at hn

theorem regIn_windowed (s : State) (w : BitVec 5) {n : RegNum} (hn : 8 ≤ n.toNat) :
    regIn s w n = s.windowed[windowIndex s.cfg w n] := by
  simp [regIn, ne_zero_of_windowed hn, Nat.not_lt.mpr hn]

theorem setRegIn_windowed (s : State) (w : BitVec 5) {n : RegNum} (v : Word) (hn : 8 ≤ n.toNat) :
    setRegIn s w n v = { s with windowed := s.windowed.set (windowIndex s.cfg w n) v } := by
  simp [setRegIn, ne_zero_of_windowed hn, Nat.not_lt.mpr hn]

/-- Two names of one place of the windowed file read the same. -/
theorem regIn_eq_of_windowIndex_eq (s : State) {w w' : BitVec 5} {n m : RegNum} (hn : 8 ≤ n.toNat)
    (hm : 8 ≤ m.toNat) (h : windowIndex s.cfg w' m = windowIndex s.cfg w n) :
    regIn s w n = regIn s w' m := by
  simp only [regIn_windowed _ _ hn, regIn_windowed _ _ hm, h]

/-- What is written to a place of the windowed file under one name is read back under any other. -/
theorem regIn_setRegIn_of_windowIndex_eq (s : State) {w w' : BitVec 5} {n m : RegNum} (v : Word)
    (hn : 8 ≤ n.toNat) (hm : 8 ≤ m.toNat) (h : windowIndex s.cfg w' m = windowIndex s.cfg w n) :
    regIn (setRegIn s w n v) w' m = v := by
  rw [← regIn_eq_of_windowIndex_eq (setRegIn s w n v) hn hm (by rwa [setRegIn_cfg])]
  exact regIn_setRegIn_same s w n v (ne_zero_of_windowed hn)

/-- A write to a windowed register is seen by none that stands in another place. -/
theorem regIn_setRegIn_of_windowIndex_ne (s : State) {w w' : BitVec 5} {n m : RegNum} (v : Word)
    (hn : 8 ≤ n.toNat) (h : 8 ≤ m.toNat → windowIndex s.cfg w' m ≠ windowIndex s.cfg w n) :
    regIn (setRegIn s w n v) w' m = regIn s w' m := by
  by_cases hm : 8 ≤ m.toNat
  · have hv : (windowIndex s.cfg w n).val ≠ (windowIndex s.cfg w' m).val :=
      fun e => h hm (Fin.ext e.symm)
    rw [regIn_windowed _ _ hm, regIn_windowed _ _ hm, setRegIn_windowed _ _ _ hn]
    simp [Vector.getElem_set_ne, hv]
  · simp [setRegIn_windowed _ _ _ hn, regIn, Nat.lt_of_not_le hm]

/-! ### The neighbours of a window -/

theorem cwpBelow_toNat {c : Config} {w : BitVec 5} (hw : w.toNat < c.nwindows) :
    (cwpBelow c w).toNat = if w.toNat = 0 then c.nwindows - 1 else w.toNat - 1 := by
  have h32 := nwindows_le c
  unfold cwpBelow
  split
  · next h0 => rw [h0, Nat.zero_add, Nat.mod_eq_of_lt (by omega), BitVec.toNat_ofNat]; omega
  · next h0 =>
    rw [show w.toNat + c.nwindows - 1 = w.toNat - 1 + c.nwindows by omega, Nat.add_mod_right,
      Nat.mod_eq_of_lt (by omega), BitVec.toNat_ofNat]
    omega

theorem cwpAbove_toNat {c : Config} {w : BitVec 5} (hw : w.toNat < c.nwindows) :
    (cwpAbove c w).toNat = if w.toNat = c.nwindows - 1 then 0 else w.toNat + 1 := by
  have h32 := nwindows_le c
  unfold cwpAbove
  split
  · next h => rw [show w.toNat + 1 = c.nwindows by omega, Nat.mod_self]; rfl
  · next h => rw [Nat.mod_eq_of_lt (by omega), BitVec.toNat_ofNat]; omega

theorem cwpBelow_cwpAbove {c : Config} {w : BitVec 5} (hw : w.toNat < c.nwindows) :
    cwpBelow c (cwpAbove c w) = w := by
  apply BitVec.eq_of_toNat_eq
  rw [cwpBelow_toNat (cwpAbove_lt c w), cwpAbove_toNat hw]
  split
  · next h => rw [if_pos rfl, h]
  · next h => rw [if_neg (Nat.succ_ne_zero _), Nat.add_sub_cancel]

/-! ### Outs, ins and locals -/

/-- The outs of a window are the ins of the window below (10_state.md R23). -/
theorem windowIndex_cwpBelow {c : Config} {w : BitVec 5} {n : RegNum} (hw : w.toNat < c.nwindows)
    (h8 : 8 ≤ n.toNat) (h15 : n.toNat ≤ 15) :
    windowIndex c (cwpBelow c w) (n + 16#5) = windowIndex c w n := by
  have hn : (n + 16#5).toNat = n.toNat + 16 := by bv_omega
  apply Fin.ext
  simp only [windowIndex, hn, cwpBelow_toNat hw]
  split
  · next h0 =>
    rw [show n.toNat + 16 - 8 + (c.nwindows - 1) * 16 = n.toNat - 8 + w.toNat * 16 + 16 * c.nwindows
      by omega, Nat.add_mod_right]
  · next h0 => congr 1; omega

/-- The ins of a window are the outs of the window above (10_state.md R23): the rule for the outs, read there. -/
theorem windowIndex_cwpAbove {c : Config} {w : BitVec 5} {n : RegNum} (hw : w.toNat < c.nwindows)
    (h24 : 24 ≤ n.toNat) : windowIndex c (cwpAbove c w) (n - 16#5) = windowIndex c w n := by
  have hn : (n - 16#5).toNat = n.toNat - 16 := by bv_omega
  have h := windowIndex_cwpBelow (n := n - 16#5) (cwpAbove_lt c w) (by omega) (by omega)
  rwa [cwpBelow_cwpAbove hw, BitVec.sub_add_cancel, eq_comm] at h

/-- The place of a local has no name in another window: the 16 places that begin at a window hold its outs and
then its locals, and the ins that run past the end of the file come back to the outs of window 0. -/
theorem windowIndex_local_ne {c : Config} {w w' : BitVec 5} {n m : RegNum} (hw : w.toNat < c.nwindows)
    (h16 : 16 ≤ n.toNat) (h23 : n.toNat ≤ 23) (hw' : w'.toNat < c.nwindows) (hne : w' ≠ w)
    (hm : 8 ≤ m.toNat) : windowIndex c w' m ≠ windowIndex c w n := by
  intro h
  have hml := m.isLt
  have hne' : w'.toNat ≠ w.toNat := fun e => hne (BitVec.eq_of_toNat_eq e)
  have hplace : (m.toNat - 8 + w'.toNat * 16) % (16 * c.nwindows) = n.toNat - 8 + w.toNat * 16 := by
    rw [← Nat.mod_eq_of_lt (show n.toNat - 8 + w.toNat * 16 < 16 * c.nwindows by omega)]
    exact congrArg Fin.val h
  rcases Nat.lt_or_ge (m.toNat - 8 + w'.toNat * 16) (16 * c.nwindows) with hin | hwrap
  · rw [Nat.mod_eq_of_lt hin] at hplace
    omega
  · rw [Nat.mod_eq_sub_mod hwrap, Nat.mod_eq_of_lt (by omega)] at hplace
    omega

/-- Settles O13. Reads after writes in one window are the register laws; across windows, two names of one place
(outs and ins) or of different places (locals) of the windowed file. -/
theorem registersAndWindows : Obligations.RegistersAndWindows := by
  unfold Obligations.RegistersAndWindows
  refine ⟨fun s w n m v => ⟨regIn_zero s w, setRegIn_zero s w v, regIn_setRegIn_same s w n v,
    regIn_setRegIn_ne s w n m v⟩, fun s w n v hw => ⟨fun h8 h15 => ?outs, fun h24 => ?ins,
      fun h16 h23 w' m hw' hne => ?locals⟩⟩
  case outs =>
    have hm : 8 ≤ (n + 16#5).toNat := by bv_omega
    have hplace := windowIndex_cwpBelow hw h8 h15
    exact ⟨regIn_eq_of_windowIndex_eq s h8 hm hplace,
      regIn_setRegIn_of_windowIndex_eq s v h8 hm hplace⟩
  case ins =>
    have hn : 8 ≤ n.toNat := by omega
    have hm : 8 ≤ (n - 16#5).toNat := by bv_omega
    have hplace := windowIndex_cwpAbove hw h24
    exact ⟨regIn_eq_of_windowIndex_eq s hn hm hplace,
      regIn_setRegIn_of_windowIndex_eq s v hn hm hplace⟩
  case locals =>
    exact regIn_setRegIn_of_windowIndex_ne s v (by omega)
      (windowIndex_local_ne hw h16 h23 hw' hne)

end Sys2Proof.Machine
end

section
/-! Byte order (20_memory.md R101): which byte of a stored value stands at which address, and what shorter reads
within a stored word return. -/

namespace Sys2Proof.Machine

/-! ### Bit fields of a word -/

/-- A bit field, zero-extended to a word, as a number. -/
theorem setWidth_extractLsb' (v : Word) (start len : Nat) :
    (v.extractLsb' start len).setWidth 32 = BitVec.ofNat 32 (v.toNat / 2 ^ start % 2 ^ len) := by
  apply BitVec.eq_of_toNat_eq
  simp [Nat.shiftRight_eq_div_pow]

/-! ### Reads of what was written -/

/-- The two bytes of a halfword that was written. -/
theorem Memory.read8_write_half (m : Memory) (a : Nat) (v : Word) :
    (m.write a v .half).read8 a = v.extractLsb' 8 8 ∧
      (m.write a v .half).read8 (a + 1) = v.extractLsb' 0 8 :=
  ⟨(Memory.read8_write8_ne _ _ _ _ (by omega)).trans (Memory.read8_write8_same _ _ _),
    Memory.read8_write8_same _ _ _⟩

/-- A halfword read composes its two bytes, the one at the lower address more significant: where they are two
neighbouring bytes of a word, it returns that part of the word. -/
theorem Memory.read_half_of_bytes {m : Memory} {a start : Nat} {v : Word}
    (hhigh : m.read8 a = v.extractLsb' (start + 8) 8) (hlow : m.read8 (a + 1) = v.extractLsb' start 8) :
    m.read a .half = BitVec.ofNat 32 (v.toNat / 2 ^ start % 2 ^ 16) := by
  simp only [Memory.read, hhigh, hlow]
  rw [BitVec.extractLsb'_append_extractLsb'_eq_extractLsb' rfl]
  exact setWidth_extractLsb' v start 16

/-- The shorter reads of a word that was written: its most significant byte and its high half at its address,
its low half two bytes on. -/
theorem Memory.read_parts_of_write_word (m : Memory) (a : Nat) (v : Word) :
    (m.write a v .word).read a .byte = BitVec.ofNat 32 (v.toNat / 2 ^ 24) ∧
      (m.write a v .word).read a .half = BitVec.ofNat 32 (v.toNat / 2 ^ 16) ∧
      (m.write a v .word).read (a + 2) .half = BitVec.ofNat 32 (v.toNat % 2 ^ 16) := by
  have hv := v.isLt
  obtain ⟨h0, h1, h2, h3⟩ := Memory.read8_write32 m a v
  refine ⟨?top, ?high, ?low⟩
  case top =>
    have htop : v.toNat / 2 ^ 24 % 2 ^ 8 = v.toNat / 2 ^ 24 := by omega
    rw [← htop, ← setWidth_extractLsb' v 24 8]
    exact congrArg (BitVec.setWidth 32) h0
  case high =>
    have hhigh : v.toNat / 2 ^ 16 % 2 ^ 16 = v.toNat / 2 ^ 16 := by omega
    rw [← hhigh]
    exact Memory.read_half_of_bytes h0 h1
  case low =>
    have h := Memory.read_half_of_bytes (start := 0) h2 h3
    rwa [Nat.pow_zero, Nat.div_one] at h

/-- Settles O36. The bytes are the laws of a word and a halfword that were written; of a doubleword, the write of
the second word leaves the first one alone. -/
theorem bigEndianByteOrder : Obligations.BigEndianByteOrder := by
  unfold Obligations.BigEndianByteOrder
  intro m a v u w h d
  obtain ⟨hhigh, hlow⟩ := Memory.read8_write_half m a v
  obtain ⟨htop, hfirst, hlast⟩ := Memory.read_parts_of_write_word m a v
  refine ⟨Memory.read8_write32 m a v, ⟨hhigh, hlow, ?frame⟩,
    ⟨htop, hfirst, hlast, Memory.read32_write32_same m a v⟩, ?dword⟩
  case frame => exact Memory.read8_write_outside m a v .half (a + 2) (.inr (Nat.le_refl _))
  case dword =>
    obtain ⟨hv, -, -, -⟩ := Memory.read8_write32 m a v
    obtain ⟨-, -, -, hu⟩ := Memory.read8_write32 (m.write a v .dword) (a + 4) u
    exact ⟨(Memory.read32_write_outside _ _ _ _ _ (.inl (Nat.le_refl _))).trans
        (Memory.read32_write32_same m a v),
      Memory.read32_write32_same _ _ _,
      (Memory.read8_write_outside _ _ _ _ _ (.inl (by omega))).trans hv, hu⟩

end Sys2Proof.Machine
end

section
/-! What an instruction with one result writes (41_integer_alu.md R400), and the logical instructions
(41_integer_alu.md section 3). -/

namespace Sys2Proof.Machine

/-! ### A write to one r register -/

/-- A write to an r register changes nothing but the register files. -/
theorem setRegIn_frame (s : State) (w : BitVec 5) (n : RegNum) (v : Word) :
    setRegIn s w n v =
      { s with globals := (setRegIn s w n v).globals, windowed := (setRegIn s w n v).windowed } := by
  unfold setRegIn
  split
  · rfl
  · split <;> rfl

/-- A write to a global leaves the windowed file alone, one to a windowed register its other places. -/
theorem setRegIn_windowed_getElem_ne {s : State} {w : BitVec 5} {n : RegNum} {v : Word} {k : Fin 512}
    (h : n.toNat < 8 ∨ k ≠ windowIndex s.cfg w n) :
    (setRegIn s w n v).windowed[k] = s.windowed[k] := by
  by_cases hn : 8 ≤ n.toNat
  · have hk : (windowIndex s.cfg w n).val ≠ k.val :=
      fun e => h.resolve_left (Nat.not_lt.mpr hn) (Fin.ext e.symm)
    simp [setRegIn_windowed s w v hn, Vector.getElem_set_ne, hk]
  · unfold setRegIn
    split
    · rfl
    · rw [if_pos (Nat.lt_of_not_le hn)]

theorem setRegIn_regsWritten (s : State) (w : BitVec 5) (n : RegNum) (v : Word) :
    RegsWritten s (setRegIn s w n v) w [(n, v)] := by
  refine ⟨fun x hx hx0 => ?written, fun m _ hm => ?global, fun k hk => ?windowed⟩
  case written =>
    obtain rfl := List.mem_singleton.mp hx
    exact regIn_setRegIn_same s w n v hx0
  case global => exact regIn_setRegIn_ne s w n m v (hm _ (List.mem_singleton_self _))
  case windowed => exact setRegIn_windowed_getElem_ne (hk _ (List.mem_singleton_self _))

/-! ### One result -/

/-- A result written to r[rd] with icc, and Y beside it, is all that changes but PC and nPC; icc is written even
with rd = 0 (41_integer_alu.md R400). -/
theorem writeResultCc_writesRegs (s : State) (rd : RegNum) (v : Word) (icc : Icc) (y : Word) :
    WritesRegs (.next (writeResultCc { s with y := y } rd v icc)) s [(rd, v)] icc y := by
  refine ⟨_, rfl,
    setRegIn_regsWritten { s with y := y, psr := { s.psr with icc := icc } } s.psr.cwp rd v,
    fun a => ?memory, ?frame⟩
  case memory => rw [writeResultCc, advance_mem, setReg_mem]
  case frame =>
    unfold writeResultCc setReg
    rw [setRegIn_frame]
    rfl

theorem writeResultCc_writesReg (s : State) (rd : RegNum) (v : Word) (icc : Icc) :
    WritesReg (.next (writeResultCc s rd v icc)) s rd v icc :=
  writeResultCc_writesRegs s rd v icc s.y

/-- A result without icc is one that writes icc back as it was. -/
theorem writeResult_writesReg (s : State) (rd : RegNum) (v : Word) :
    WritesReg (.next (writeResult s rd v)) s rd v s.psr.icc :=
  writeResultCc_writesReg s rd v s.psr.icc

/-! ### The logical instructions -/

/-- The sign of a word is its bit 31, as the formulas for icc name it. -/
theorem msb_eq_bit31 (v : Word) : v.msb = v.getLsbD 31 := BitVec.msb_eq_getLsbD_last v

theorem iccLogic_eq (r : Word) : iccLogic r = ⟨r.getLsbD 31, decide (r = 0#32), false, false⟩ := by
  rw [iccLogic, msb_eq_bit31, beq_eq_decide]

/-- A logical instruction and its cc form, both of the operation `f` on their operands. -/
theorem logical_writesReg {s : State} {rd rs1 : RegNum} {o : Operand2} {f : Word → Word → Word} {r : Word}
    {plain cc : Instr} (hplain : exec plain s = .next (logical s rd rs1 o f))
    (hcc : exec cc s = .next (logicalCc s rd rs1 o f)) (hr : f (reg s rs1) (operand2 s o) = r) :
    WritesReg (exec plain s) s rd r s.psr.icc ∧
      WritesReg (exec cc s) s rd r ⟨r.getLsbD 31, decide (r = 0#32), false, false⟩ := by
  subst hr
  rw [hplain, hcc, ← iccLogic_eq]
  exact ⟨writeResult_writesReg s rd _, writeResultCc_writesReg s rd _ _⟩

/-- Settles O16. Each pair of instructions is `logical` and `logicalCc` of one operation; XNOR computes
a xor not b, which is not (a xor b). -/
theorem logicalResults : Obligations.LogicalResults := by
  unfold Obligations.LogicalResults
  intro s rd rs1 o a b both
  exact ⟨logical_writesReg rfl rfl rfl, logical_writesReg rfl rfl rfl, logical_writesReg rfl rfl rfl,
    logical_writesReg rfl rfl rfl, logical_writesReg rfl rfl rfl,
    logical_writesReg rfl rfl BitVec.not_xor_right.symm⟩

end Sys2Proof.Machine
end

section
/-! icc of additions and subtractions (41_integer_alu.md R402, R403): what V and C say of the exact sum and
difference of the operands, read as signed and as unsigned numbers. A subtraction is an addition read
backwards, r = a - b - c where r + b + c = a, and its V and C are those of that addition. -/

namespace Sys2Proof.Machine

/-! ### Signs and carries as numbers -/

/-- The sign bit, and what it says of the unsigned and the signed value of a word. -/
theorem sign_cases (v : Word) :
    (v.msb = false ∧ v.toNat < 2 ^ 31 ∧ v.toInt = v.toNat) ∨
      (v.msb = true ∧ 2 ^ 31 ≤ v.toNat ∧ v.toInt = v.toNat - 2 ^ 32) := by
  have hmsb : v.msb = true ↔ 2 ^ 31 ≤ v.toNat := by simp [BitVec.msb_eq_decide]
  rw [BitVec.toInt_eq_msb_cond]
  cases h : v.msb
  case false => exact .inl ⟨rfl, by simpa [h] using hmsb, rfl⟩
  case true => exact .inr ⟨rfl, hmsb.mp h, rfl⟩

theorem toNat_carry (carry : Bool) : ((BitVec.ofBool carry).setWidth 32).toNat = carry.toNat := by
  cases carry <;> rfl

theorem toNat_add_carry (a b : Word) (carry : Bool) :
    (a + b + (BitVec.ofBool carry).setWidth 32).toNat =
      (a.toNat + b.toNat + carry.toNat) % 2 ^ 32 := by
  rw [BitVec.toNat_add, BitVec.toNat_add, toNat_carry, Nat.mod_add_mod]

/-! ### Additions (41_integer_alu.md R402) -/

section
variable {a b r : Word} {carry : Bool} (hr : r.toNat = (a.toNat + b.toNat + carry.toNat) % 2 ^ 32)
include hr

/-- C says that the unsigned sum does not fit: never of two words below 2^31, always of two above, and of one
of each just when the sum as a word comes out below 2^31. -/
theorem addCarry_eq : addCarry a b r = decide (2 ^ 32 ≤ a.toNat + b.toNat + carry.toNat) := by
  have hc := carry.toNat_le
  obtain ⟨ha, hal, -⟩ | ⟨ha, hal, -⟩ := sign_cases a <;>
    obtain ⟨hb, hbl, -⟩ | ⟨hb, hbl, -⟩ := sign_cases b
  case inl.inl =>
    have hfits : a.toNat + b.toNat + carry.toNat < 2 ^ 32 := by omega
    simpa [addCarry, ha, hb] using hfits
  case inr.inr =>
    have hwraps : 2 ^ 32 ≤ a.toNat + b.toNat + carry.toNat := by omega
    simpa [addCarry, ha, hb] using hwraps
  case inl.inr | inr.inl =>
    obtain ⟨hs, hrl, -⟩ | ⟨hs, hrl, -⟩ := sign_cases r
    · have hwraps : 2 ^ 32 ≤ a.toNat + b.toNat + carry.toNat := by omega
      simpa [addCarry, ha, hb, hs] using hwraps
    · have hfits : a.toNat + b.toNat + carry.toNat < 2 ^ 32 := by omega
      simpa [addCarry, ha, hb, hs] using hfits

/-- V says that the signed sum does not fit: with operands of different signs it always fits, with operands
of one sign just when the sum as a word has that sign. -/
theorem addOverflow_eq :
    addOverflow a b r = decide (a.toInt + b.toInt + (carry.toNat : Int) ≠ r.toInt) := by
  have hc := carry.toNat_le
  obtain ⟨ha, hal, hai⟩ | ⟨ha, hal, hai⟩ := sign_cases a <;>
    obtain ⟨hb, hbl, hbi⟩ | ⟨hb, hbl, hbi⟩ := sign_cases b <;>
    obtain ⟨hs, hrl, hri⟩ | ⟨hs, hrl, hri⟩ := sign_cases r
  case inl.inl.inr | inr.inr.inl =>
    have hwrong : a.toInt + b.toInt + carry.toNat ≠ r.toInt := by omega
    simpa [addOverflow, ha, hb, hs] using hwrong
  all_goals
    have hexact : a.toInt + b.toInt + carry.toNat = r.toInt := by omega
    simpa [addOverflow, ha, hb, hs] using hexact

end

/-! ### Subtractions (41_integer_alu.md R403) -/

theorem subOverflow_eq_addOverflow (a b r : Word) : subOverflow a b r = addOverflow r b a := by
  unfold subOverflow addOverflow
  ac_rfl

theorem subBorrow_eq_addCarry (a b r : Word) : subBorrow a b r = addCarry r b a := by
  unfold subBorrow addCarry
  rw [Bool.and_or_distrib_left, Bool.and_or_distrib_left]
  ac_rfl

/-- The minuend is the sum of the difference, the subtrahend and the borrow. -/
theorem toNat_eq_sub_borrow_add (a b : Word) (borrow : Bool) :
    a.toNat = ((a - b - (BitVec.ofBool borrow).setWidth 32).toNat + b.toNat + borrow.toNat) % 2 ^ 32 := by
  have hback (c : Word) : a - b - c + b + c = a := by
    rw [BitVec.add_assoc, BitVec.add_comm b c, ← BitVec.add_assoc, BitVec.sub_add_cancel,
      BitVec.sub_add_cancel]
  rw [← toNat_add_carry, hback]

section
variable {a b r : Word} {borrow : Bool} (hr : a.toNat = (r.toNat + b.toNat + borrow.toNat) % 2 ^ 32)
include hr

/-- C says that the subtrahend and the borrow exceed the minuend: adding them back to the difference wraps. -/
theorem subBorrow_eq : subBorrow a b r = decide (a.toNat < b.toNat + borrow.toNat) := by
  have hlt := r.isLt
  have hc := borrow.toNat_le
  rw [subBorrow_eq_addCarry, addCarry_eq hr, decide_eq_decide]
  omega

/-- V says that the signed difference does not fit. -/
theorem subOverflow_eq :
    subOverflow a b r = decide (a.toInt - b.toInt - (borrow.toNat : Int) ≠ r.toInt) := by
  rw [subOverflow_eq_addOverflow, addOverflow_eq hr, decide_eq_decide]
  omega

end

/-- Settles O18. The formulas are the model's, with bit 31 for the sign; what V and C mean is said of the sum,
and of the difference through the sum that gives the minuend back. -/
theorem arithmeticFlags : Obligations.ArithmeticFlags := by
  unfold Obligations.ArithmeticFlags
  intro a b carry c n a31 b31
  have hsum := toNat_add_carry a b carry
  have hdiff := toNat_eq_sub_borrow_add a b carry
  refine ⟨⟨msb_eq_bit31 _, beq_eq_decide _ _, ?addV, ?addC, addOverflow_eq hsum, addCarry_eq hsum⟩,
    msb_eq_bit31 _, beq_eq_decide _ _, ?subV, ?subC, subOverflow_eq hdiff, subBorrow_eq hdiff⟩
  case addV => simp only [iccAdd, addOverflow, msb_eq_bit31]; rfl
  case addC => simp only [iccAdd, addCarry, msb_eq_bit31]; rfl
  case subV => simp only [iccSub, subOverflow, msb_eq_bit31]; rfl
  case subC => simp only [iccSub, subBorrow, msb_eq_bit31]; rfl

end Sys2Proof.Machine
end

section
/-! The decoder against the encoder (30_encoding.md sections 1 to 3): a word is the fields it is cut into, a field
is its operand, and the fields name the instruction. -/

namespace Sys2Proof

/-! ### Words and fields -/

/-- The decoder reads one word, four bytes in memory order, and leaves the rest. -/
theorem decode_bytesOfWord (w : Word) (rest : List Byte) :
    decode (bytesOfWord w ++ rest) = .ok (decodeWord w, rest) := by
  show Except.ok (decodeWord (wordOfBytes _ _ _ _), rest) = _
  rw [Machine.wordOfBytes_extract]

open BitVec in
/-- A word of packed fields is cut into them. -/
theorem unpack_pack (f : Format) : unpack (pack f) = f := by
  cases f with
  | call d =>
    simp [unpack, pack, extractLsb'_append_eq_of_le (v := 2) (w := 30),
      extractLsb'_append_eq_of_add_le (v := 2) (w := 30)]
  | fmt2 top op2 imm =>
    simp [unpack, pack, extractLsb'_append_eq_of_le (v := 10) (w := 22),
      extractLsb'_append_eq_of_add_le (v := 10) (w := 22), extractLsb'_append_eq_of_le (v := 7) (w := 3),
      extractLsb'_append_eq_of_add_le (v := 7) (w := 3), extractLsb'_append_eq_of_le (v := 2) (w := 5),
      extractLsb'_append_eq_of_add_le (v := 2) (w := 5)]
  | fmt3 mem rd op3 rs1 low =>
    cases mem <;>
      simp [unpack, pack, extractLsb'_append_eq_of_le (v := 18) (w := 14),
        extractLsb'_append_eq_of_add_le (v := 18) (w := 14), extractLsb'_append_eq_of_le (v := 13) (w := 5),
        extractLsb'_append_eq_of_add_le (v := 13) (w := 5), extractLsb'_append_eq_of_le (v := 7) (w := 6),
        extractLsb'_append_eq_of_add_le (v := 7) (w := 6), extractLsb'_append_eq_of_le (v := 2) (w := 5),
        extractLsb'_append_eq_of_add_le (v := 2) (w := 5)]

/-! ### Operands -/

section
open BitVec

/-- Bits 13:0 of i and simm13, or of i and the rest of an immediate form. -/
theorem low_immediate (v : BitVec 13) :
    ((1#1 ++ v : BitVec (1 + 13)) : BitVec 14).extractLsb' 13 1 = 1#1 ∧
      ((1#1 ++ v : BitVec (1 + 13)) : BitVec 14).extractLsb' 0 13 = v :=
  ⟨extractLsb'_append_eq_of_le (v := 1) (w := 13) (by decide), extractLsb'_append_eq_right (w := 1) (w' := 13)⟩

/-- The fields of bits 13:0 with nine bits above a register number or a shift count. -/
theorem low_fields (x : BitVec 9) (y : BitVec 5) :
    ((x ++ y : BitVec (9 + 5)) : BitVec 14).extractLsb' 13 1 = x.extractLsb' 8 1 ∧
      ((x ++ y : BitVec (9 + 5)) : BitVec 14).extractLsb' 5 8 = x.extractLsb' 0 8 ∧
        ((x ++ y : BitVec (9 + 5)) : BitVec 14).extractLsb' 5 9 = x ∧
          ((x ++ y : BitVec (9 + 5)) : BitVec 14).extractLsb' 0 5 = y :=
  ⟨extractLsb'_append_eq_of_le (v := 9) (w := 5) (by decide), extractLsb'_append_eq_of_le (v := 9) (w := 5) (by decide),
    extractLsb'_append_eq_left (w := 9) (w' := 5), extractLsb'_append_eq_right (w := 9) (w' := 5)⟩

@[simp] theorem decodeOperand2_encodeOperand2 (o : Operand2) : decodeOperand2 (encodeOperand2 o) = o := by
  cases o with
  | reg rs2 => simp [decodeOperand2, encodeOperand2, low_fields]
  | imm v => simp [decodeOperand2, encodeOperand2, low_immediate]

@[simp] theorem decodeAlt_encodeAlt (o : AltOperand) : decodeAlt (encodeAlt o) = o := by
  cases o with
  | reg asi rs2 =>
    simp [decodeAlt, encodeAlt, low_fields, extractLsb'_append_eq_of_le (v := 1) (w := 8),
      extractLsb'_append_eq_of_add_le (v := 1) (w := 8)]
  | imm v => simp [decodeAlt, encodeAlt, low_immediate]

@[simp] theorem decodeShift_encodeShift (o : ShiftOperand) : decodeShift (encodeShift o) = o := by
  cases o with
  | reg rs2 => simp [decodeShift, encodeShift, low_fields]
  | imm v => simp [decodeShift, encodeShift, low_fields]

@[simp] theorem decodeTrapOperand_encodeTrapOperand (o : TrapOperand) :
    decodeTrapOperand (encodeTrapOperand o) = o := by
  cases o with
  | reg rs2 => simp [decodeTrapOperand, encodeTrapOperand, low_fields]
  | imm v =>
    simp [decodeTrapOperand, encodeTrapOperand, extractLsb'_append_eq_of_le (v := 7) (w := 7),
      extractLsb'_append_eq_of_add_le (v := 7) (w := 7)]

end

/-! ### The rows of unused patterns (30_encoding.md R242) -/

/-- A field that names row k of a table is the bit pattern k. -/
theorem eq_ofNat_of_toNat {n k : Nat} {x : BitVec n} (h : x.toNat = k) : x = BitVec.ofNat n k := by
  rw [← h, BitVec.ofNat_toNat, BitVec.setWidth_eq]

theorem decodeFpop1_unassigned {opf : BitVec 9} (rd rs1 rs2 : RegNum) (h : assignedOpf1.contains opf = false) :
    decodeFpop1 rd rs1 opf rs2 = .fpop1Unassigned rd rs1 opf rs2 := by
  unfold decodeFpop1
  split
  case h_33 => rfl
  all_goals
    rename_i hn
    obtain rfl := eq_ofNat_of_toNat hn
    cases h

theorem decodeFpop2_unassigned {opf : BitVec 9} (rd rs1 rs2 : RegNum) (h : assignedOpf2.contains opf = false) :
    decodeFpop2 rd rs1 opf rs2 = .fpop2Unassigned rd rs1 opf rs2 := by
  unfold decodeFpop2
  split
  case h_7 => rfl
  all_goals
    rename_i hn
    obtain rfl := eq_ofNat_of_toNat hn
    cases h

theorem decodeArith_unassigned (rd rs1 : RegNum) (low : BitVec 14) :
    ∀ op3 ∈ unassignedArith, decodeArith rd op3 rs1 low = .unassignedOp3Arith op3 := by
  simp [unassignedArith, decodeArith]

theorem decodeMem_unassigned (rd rs1 : RegNum) (low : BitVec 14) :
    ∀ op3 ∈ unassignedMem, decodeMem rd op3 rs1 low = .unassignedOp3Mem op3 := by
  simp [unassignedMem, decodeMem]

/-! ### The families whose rows a second field picks -/

theorem decodeFormat_fpop1 (rd rs1 : RegNum) (opf : BitVec 9) (rs2 : RegNum) :
    decodeFormat (.fmt3 false rd 0x34#6 rs1 (opf ++ rs2)) = decodeFpop1 rd rs1 opf rs2 := by
  show decodeFpop1 rd rs1 _ _ = _
  rw [(low_fields opf rs2).2.2.1, (low_fields opf rs2).2.2.2]

theorem decodeFormat_fpop2 (rd rs1 : RegNum) (opf : BitVec 9) (rs2 : RegNum) :
    decodeFormat (.fmt3 false rd 0x35#6 rs1 (opf ++ rs2)) = decodeFpop2 rd rs1 opf rs2 := by
  show decodeFpop2 rd rs1 _ _ = _
  rw [(low_fields opf rs2).2.2.1, (low_fields opf rs2).2.2.2]

theorem decodeFormat_cpop1 (rd rs1 : RegNum) (opc : BitVec 9) (rs2 : RegNum) :
    decodeFormat (.fmt3 false rd 0x36#6 rs1 (opc ++ rs2)) = .cpop1 rd rs1 opc rs2 := by
  show Instr.cpop1 rd rs1 _ _ = _
  rw [(low_fields opc rs2).2.2.1, (low_fields opc rs2).2.2.2]

theorem decodeFormat_cpop2 (rd rs1 : RegNum) (opc : BitVec 9) (rs2 : RegNum) :
    decodeFormat (.fmt3 false rd 0x37#6 rs1 (opc ++ rs2)) = .cpop2 rd rs1 opc rs2 := by
  show Instr.cpop2 rd rs1 _ _ = _
  rw [(low_fields opc rs2).2.2.1, (low_fields opc rs2).2.2.2]

/-- The fields of a branch: the annul bit above cond. -/
theorem branch_fields (a : Bool) (cond : BitVec 4) :
    ((BitVec.ofBool a ++ cond : BitVec (1 + 4)) : BitVec 5).extractLsb' 0 4 = cond ∧
      (((BitVec.ofBool a ++ cond : BitVec (1 + 4)) : BitVec 5).extractLsb' 4 1 == 1#1) = a := by
  revert a cond
  decide

theorem decodeFormat_bicc (a : Bool) (cond : BitVec 4) (d : BitVec 22) :
    decodeFormat (.fmt2 (BitVec.ofBool a ++ cond) 2#3 d) = decodeBicc cond a d := by
  show decodeBicc _ _ d = _
  rw [(branch_fields a cond).1, (branch_fields a cond).2]

theorem decodeFormat_fbfcc (a : Bool) (cond : BitVec 4) (d : BitVec 22) :
    decodeFormat (.fmt2 (BitVec.ofBool a ++ cond) 6#3 d) = decodeFBfcc cond a d := by
  show decodeFBfcc _ _ d = _
  rw [(branch_fields a cond).1, (branch_fields a cond).2]

theorem decodeFormat_cbccc (a : Bool) (cond : BitVec 4) (d : BitVec 22) :
    decodeFormat (.fmt2 (BitVec.ofBool a ++ cond) 7#3 d) = decodeCBccc cond a d := by
  show decodeCBccc _ _ d = _
  rw [(branch_fields a cond).1, (branch_fields a cond).2]

/-! ### The round trip -/

/-- The fields of an encoded well-formed instruction name it. The rows that others' patterns stand next to are
told apart by well-formedness; every other row is picked by its own op3, opf, op2 or cond. -/
theorem decodeFormat_encodeFormat (i : Instr) (h : i.wellFormed = true) : decodeFormat (encodeFormat i) = i := by
  cases i
  case sethi rd imm =>
    have hn : rd ≠ 0#5 ∨ imm ≠ 0#22 := by simpa [Instr.wellFormed] using h
    exact if_neg (not_and_or.mpr hn)
  case rdasr rd rs1 =>
    have hn : rs1 ≠ 0#5 ∧ (rs1 ≠ 15#5 ∨ rd ≠ 0#5) := by simpa [Instr.wellFormed] using h
    exact (if_neg hn.1).trans (if_neg (not_and_or.mpr hn.2))
  case wrasr rd rs1 o =>
    have hn : rd ≠ 0#5 := by simpa [Instr.wellFormed] using h
    exact (if_neg hn).trans (by rw [decodeOperand2_encodeOperand2])
  case fpop1Unassigned rd rs1 opf rs2 =>
    exact (decodeFormat_fpop1 ..).trans (decodeFpop1_unassigned rd rs1 rs2 (by simpa [Instr.wellFormed] using h))
  case fpop2Unassigned rd rs1 opf rs2 =>
    exact (decodeFormat_fpop2 ..).trans (decodeFpop2_unassigned rd rs1 rs2 (by simpa [Instr.wellFormed] using h))
  case unassignedOp2 op2 =>
    have hn : (op2 = 1#3 ∨ op2 = 3#3) ∨ op2 = 5#3 := by simpa [Instr.wellFormed, or_assoc] using h
    rcases hn with (rfl | rfl) | rfl <;> rfl
  case unassignedOp3Arith op3 =>
    exact decodeArith_unassigned _ _ _ op3 (List.contains_iff_mem.mp h)
  case unassignedOp3Mem op3 => exact decodeMem_unassigned _ _ _ op3 (List.contains_iff_mem.mp h)
  all_goals
    clear h
    simp only [encodeFormat, decodeFormat_fpop1, decodeFormat_fpop2, decodeFormat_cpop1, decodeFormat_cpop2,
      decodeFormat_bicc, decodeFormat_fbfcc, decodeFormat_cbccc]
  all_goals
    conv_lhs => whnf
  all_goals
    simp only [decodeOperand2_encodeOperand2, decodeAlt_encodeAlt, decodeShift_encodeShift,
      decodeTrapOperand_encodeTrapOperand]

theorem decodeWord_encode (i : Instr) (h : i.wellFormed = true) : decodeWord (encode i) = i := by
  rw [decodeWord, encode, unpack_pack, decodeFormat_encodeFormat i h]

/-- Settles O1. -/
theorem decodeOfEncode : Obligations.DecodeOfEncode := by
  unfold Obligations.DecodeOfEncode
  intro i rest h
  rw [decode_bytesOfWord, decodeWord_encode i h]

/-! ### Every word is an instruction (30_encoding.md R242) -/

theorem decodeFpop1_wellFormed (rd rs1 : RegNum) (opf : BitVec 9) (rs2 : RegNum) :
    (decodeFpop1 rd rs1 opf rs2).wellFormed = true := by
  by_cases hc : assignedOpf1.contains opf = true
  · have rows : ∀ x ∈ assignedOpf1, (decodeFpop1 rd rs1 x rs2).wellFormed = true := by
      simp only [assignedOpf1, List.forall_mem_cons]
      and_intros
      all_goals first | rfl | exact List.forall_mem_nil _
    exact rows opf (List.contains_iff_mem.mp hc)
  · rw [decodeFpop1_unassigned rd rs1 rs2 (by simpa using hc)]
    simpa [Instr.wellFormed] using hc

theorem decodeFpop2_wellFormed (rd rs1 : RegNum) (opf : BitVec 9) (rs2 : RegNum) :
    (decodeFpop2 rd rs1 opf rs2).wellFormed = true := by
  unfold decodeFpop2
  split
  case h_7 =>
    have hc : assignedOpf2.contains opf = false := by decide +revert
    simpa [Instr.wellFormed] using hc
  all_goals rfl

theorem decodeBicc_wellFormed (cond : BitVec 4) (a : Bool) (d : BitVec 22) :
    (decodeBicc cond a d).wellFormed = true := by
  unfold decodeBicc
  split <;> rfl

theorem decodeFBfcc_wellFormed (cond : BitVec 4) (a : Bool) (d : BitVec 22) :
    (decodeFBfcc cond a d).wellFormed = true := by
  unfold decodeFBfcc
  split <;> rfl

theorem decodeCBccc_wellFormed (cond : BitVec 4) (a : Bool) (d : BitVec 22) :
    (decodeCBccc cond a d).wellFormed = true := by
  unfold decodeCBccc
  split <;> rfl

theorem decodeTicc_wellFormed (cond : BitVec 4) (rs1 : RegNum) (o : TrapOperand) :
    (decodeTicc cond rs1 o).wellFormed = true := by
  unfold decodeTicc
  split <;> rfl

theorem decodeFmt2_wellFormed (top : BitVec 5) (op2 : BitVec 3) (imm : BitVec 22) :
    (decodeFmt2 top op2 imm).wellFormed = true := by
  unfold decodeFmt2
  split
  case h_1 => rfl
  case h_2 => exact decodeBicc_wellFormed ..
  case h_3 =>
    split
    · rfl
    · next h => simpa [Instr.wellFormed, imp_iff_not_or] using h
  case h_4 => exact decodeFBfcc_wellFormed ..
  case h_5 => exact decodeCBccc_wellFormed ..
  case h_6 =>
    show (op2 == 1#3 || op2 == 3#3 || op2 == 5#3) = true
    decide +revert

/-- The op3 values of the instructions with op = 3 (30_encoding.md R238). -/
theorem unassignedMem_or_row (op3 : BitVec 6) :
    unassignedMem.contains op3 = true ∨
      op3.toNat ∈ [0x00, 0x01, 0x02, 0x03, 0x04, 0x05, 0x06, 0x07, 0x09, 0x0A, 0x0D, 0x0F, 0x10, 0x11, 0x12, 0x13,
        0x14, 0x15, 0x16, 0x17, 0x19, 0x1A, 0x1D, 0x1F, 0x20, 0x21, 0x23, 0x24, 0x25, 0x26, 0x27, 0x30, 0x31, 0x33,
        0x34, 0x35, 0x36, 0x37] := by
  decide +revert

theorem decodeMem_wellFormed (rd : RegNum) (op3 : BitVec 6) (rs1 : RegNum) (low : BitVec 14) :
    (decodeMem rd op3 rs1 low).wellFormed = true := by
  unfold decodeMem
  split
  case h_39 => exact (unassignedMem_or_row op3).resolve_right (by simp_all)
  all_goals rfl

/-- The op3 values of the instructions with op = 2 (30_encoding.md R237). -/
theorem unassignedArith_or_row (op3 : BitVec 6) :
    unassignedArith.contains op3 = true ∨
      op3.toNat ∈ [0x00, 0x01, 0x02, 0x03, 0x04, 0x05, 0x06, 0x07, 0x08, 0x0A, 0x0B, 0x0C, 0x0E, 0x0F, 0x10, 0x11,
        0x12, 0x13, 0x14, 0x15, 0x16, 0x17, 0x18, 0x1A, 0x1B, 0x1C, 0x1E, 0x1F, 0x20, 0x21, 0x22, 0x23, 0x24, 0x25,
        0x26, 0x27, 0x28, 0x29, 0x2A, 0x2B, 0x30, 0x31, 0x32, 0x33, 0x34, 0x35, 0x36, 0x37, 0x38, 0x39, 0x3A, 0x3B,
        0x3C, 0x3D] := by
  decide +revert

theorem decodeArith_wellFormed (rd : RegNum) (op3 : BitVec 6) (rs1 : RegNum) (low : BitVec 14) :
    (decodeArith rd op3 rs1 low).wellFormed = true := by
  unfold decodeArith
  split
  case h_37 =>
    split
    · rfl
    · next h0 =>
      split
      · rfl
      · next h15 => simpa [Instr.wellFormed, h0, imp_iff_not_or] using h15
  case h_41 =>
    split
    · rfl
    · next h => simpa [Instr.wellFormed] using h
  case h_45 => exact decodeFpop1_wellFormed ..
  case h_46 => exact decodeFpop2_wellFormed ..
  case h_51 => exact decodeTicc_wellFormed ..
  case h_55 => exact (unassignedArith_or_row op3).resolve_right (by simp_all)
  all_goals rfl

theorem decodeWord_wellFormed (w : Word) : (decodeWord w).wellFormed = true := by
  unfold decodeWord
  cases unpack w with
  | call d => rfl
  | fmt2 top op2 imm => exact decodeFmt2_wellFormed top op2 imm
  | fmt3 mem rd op3 rs1 low =>
    cases mem with
    | true => exact decodeMem_wellFormed rd op3 rs1 low
    | false => exact decodeArith_wellFormed rd op3 rs1 low

/-- Settles O2. -/
theorem everyWordDecodes : Obligations.EveryWordDecodes := by
  unfold Obligations.EveryWordDecodes
  exact fun w => ⟨decodeWord w, decode_bytesOfWord w [], decodeWord_wellFormed w⟩

/-- Settles O3. -/
theorem decodeSampleWords : Obligations.DecodeSampleWords := by
  unfold Obligations.DecodeSampleWords
  decide

end Sys2Proof
end

section
/-! What every instruction keeps: memory's canonical form, aligned program counters, legal windows, and an FPU
without a queue that defers nothing (`Keeps`). Each primitive update is shown to keep them once; a meaning then
keeps them because its steps do. -/

namespace Sys2Proof.Machine

/-! ### The relation -/

/-- The configuration is that of `s`, and each invariant that `s` meets holds in `t`. -/
structure Keeps (s t : State) : Prop where
  cfg : t.cfg = s.cfg
  mem : s.mem.wf → t.mem.wf
  pc : PcAligned s → PcAligned t
  windows : WindowExists s ∧ WimImplemented s → WindowExists t ∧ WimImplemented t
  fpu : NoQueueNoDeferral s → NoQueueNoDeferral t

theorem Keeps.refl (s : State) : Keeps s s := ⟨rfl, id, id, id, id⟩

theorem Keeps.trans {s t u : State} (h : Keeps s t) (k : Keeps t u) : Keeps s u :=
  ⟨k.cfg.trans h.cfg, k.mem ∘ h.mem, k.pc ∘ h.pc, k.windows ∘ h.windows, k.fpu ∘ h.fpu⟩

/-- `t` agrees with `s` in every field that an invariant but memory's speaks of. -/
structure SameControl (s t : State) : Prop where
  cfg : t.cfg = s.cfg
  pc : t.pc = s.pc
  npc : t.npc = s.npc
  cwp : t.psr.cwp = s.psr.cwp
  wim : t.wim = s.wim
  pending : t.pending = s.pending
  fq : t.fq = s.fq
  fpuQueue : t.fpuQueue = s.fpuQueue
  fpuMode : t.fpuMode = s.fpuMode

theorem SameControl.pcAligned {s t : State} (h : SameControl s t) (k : PcAligned s) : PcAligned t := by
  unfold PcAligned at *
  rwa [h.pc, h.npc]

theorem SameControl.windows {s t : State} (h : SameControl s t) (k : WindowExists s ∧ WimImplemented s) :
    WindowExists t ∧ WimImplemented t := by
  unfold WindowExists WimImplemented at *
  rwa [h.cwp, h.wim, h.cfg, h.pending]

theorem SameControl.noDeferral {s t : State} (h : SameControl s t) (k : NoQueueNoDeferral s) :
    NoQueueNoDeferral t := by
  unfold NoQueueNoDeferral at *
  rwa [h.cfg, h.fq, h.fpuQueue, h.fpuMode]

theorem SameControl.keeps {s t : State} (h : SameControl s t) (hm : s.mem.wf → t.mem.wf) : Keeps s t :=
  ⟨h.cfg, hm, h.pcAligned, h.windows, h.noDeferral⟩

/-- A change of fields that no invariant speaks of. -/
theorem Keeps.elsewhere {s t : State}
    (h : t = { t with
      cfg := s.cfg, pc := s.pc, npc := s.npc, psr := { t.psr with cwp := s.psr.cwp }, wim := s.wim
      pending := s.pending, fq := s.fq, fpuQueue := s.fpuQueue, fpuMode := s.fpuMode, mem := s.mem }) :
    Keeps s t := by
  refine SameControl.keeps ?_ (by rw [h]; exact id)
  constructor <;> rw [h]

theorem AccessFrame.keeps {s t : State} (h : AccessFrame s t) : Keeps s t := by
  have hr := h.rest
  refine SameControl.keeps ?_ h.wf
  constructor <;> rw [hr]

/-! ### The program counters -/

/-- A transfer of control keeps the program counters aligned if its target is. -/
theorem jump_keeps (s : State) (target : Word) (h : PcAligned s → target.extractLsb' 0 2 = 0#2) :
    Keeps s { s with pc := s.npc, npc := target } where
  cfg := rfl
  mem := id
  pc hp := ⟨hp.2, h hp⟩
  windows := id
  fpu := id

/-- The sum of aligned words is aligned. -/
theorem aligned_add {a b : Word} (ha : a.extractLsb' 0 2 = 0#2) (hb : b.extractLsb' 0 2 = 0#2) :
    (a + b).extractLsb' 0 2 = 0#2 := by
  have ha' := congrArg BitVec.toNat ha
  have hb' := congrArg BitVec.toNat hb
  apply BitVec.eq_of_toNat_eq
  simp only [BitVec.extractLsb'_toNat, BitVec.toNat_add, Nat.shiftRight_zero, BitVec.toNat_ofNat] at *
  omega

theorem advance_keeps (s : State) : Keeps s (advance s) :=
  jump_keeps s _ fun h => aligned_add h.2 (by decide)

/-- Sign extension keeps the low bits. -/
theorem signExtend_low {w : Nat} (x : BitVec w) (h : 2 ≤ w) :
    (x.signExtend 32).extractLsb' 0 2 = x.extractLsb' 0 2 := by
  ext i hi
  have hw : i < w := by omega
  have h32 : i < 32 := by omega
  simp only [BitVec.getElem_extractLsb', BitVec.getLsbD_signExtend, Nat.zero_add, h32, hw, decide_true, if_true,
    Bool.true_and]

/-- Displacements count words (42_control_transfer.md R510, R530). -/
theorem branchTarget_aligned (s : State) (d : BitVec 22) (h : PcAligned s) :
    (branchTarget s d).extractLsb' 0 2 = 0#2 := by
  refine aligned_add h.1 ((signExtend_low _ (by decide)).trans ?_)
  exact BitVec.extractLsb'_append_eq_right (w := 22) (w' := 2)

theorem callTarget_aligned (s : State) (d : BitVec 30) (h : PcAligned s) :
    (callTarget s d).extractLsb' 0 2 = 0#2 :=
  aligned_add h.1 (BitVec.extractLsb'_append_eq_right (w := 30) (w' := 2))

theorem branch_keeps (s : State) (taken always a : Bool) (d : BitVec 22) : Keeps s (branch s taken always a d) := by
  unfold branch
  split
  · exact (jump_keeps s _ (branchTarget_aligned s d)).trans
      (.elsewhere rfl)
  · exact (advance_keeps s).trans (.elsewhere rfl)

/-! ### Registers and windows -/

theorem setReg_keeps (s : State) (n : RegNum) (v : Word) : Keeps s (setReg s n v) := by
  refine SameControl.keeps ?_ (by simp)
  constructor <;> simp

theorem setFreg_keeps (s : State) (n : RegNum) (v : Word) : Keeps s (setFreg s n v) :=
  .elsewhere rfl

/-- Fields that no invariant speaks of. -/
theorem writeY_keeps (s : State) (y : Word) : Keeps s { s with y := y } :=
  .elsewhere rfl

/-- A move to a window that exists. -/
theorem setCwp_keeps (s : State) (w : BitVec 5) (h : w.toNat < s.cfg.nwindows) (et sup : Bool) :
    Keeps s { s with psr := { s.psr with et := et, cwp := w, s := sup } } where
  cfg := rfl
  mem := id
  pc := id
  windows hw := ⟨⟨h, hw.1.2⟩, hw.2⟩
  fpu := id

theorem writeResult_keeps (s : State) (rd : RegNum) (v : Word) : Keeps s (writeResult s rd v) :=
  (setReg_keeps s rd v).trans (advance_keeps _)

theorem writeResultCc_keeps (s : State) (rd : RegNum) (v : Word) (icc : Icc) : Keeps s (writeResultCc s rd v icc) :=
  have h : Keeps s { s with psr := { s.psr with icc := icc } } :=
    .elsewhere rfl
  (h.trans (setReg_keeps _ rd v)).trans (advance_keeps _)

/-! ### The delayed writes -/

/-- Every WRPSR among these writes names a window that exists. -/
def WindowsNamed (c : Config) (ps : List PendingWrite) : Prop :=
  ∀ p ∈ ps, p.reg = .psr → (p.value.extractLsb' 0 5).toNat < c.nwindows

theorem wimImplemented_mask (v mask : Word) : v &&& mask &&& mask = v &&& mask := by
  rw [BitVec.and_assoc, BitVec.and_self]

/-- A delayed write that names a window that exists keeps the windows legal. -/
theorem commit_windows {s : State} {p : PendingWrite} (hp : WindowsNamed s.cfg [p])
    (hc : s.psr.cwp.toNat < s.cfg.nwindows) (hw : WimImplemented s) :
    (commit s p).psr.cwp.toNat < s.cfg.nwindows ∧ WimImplemented (commit s p) := by
  unfold commit
  split
  case h_2 h => exact ⟨hp p (List.mem_singleton_self p) h, hw⟩
  case h_3 => exact ⟨hc, wimImplemented_mask ..⟩
  all_goals exact ⟨hc, hw⟩

theorem foldl_commit_windows {ps : List PendingWrite} {s : State} (hp : WindowsNamed s.cfg ps)
    (hc : s.psr.cwp.toNat < s.cfg.nwindows) (hw : WimImplemented s) :
    (ps.foldl commit s).psr.cwp.toNat < s.cfg.nwindows ∧ WimImplemented (ps.foldl commit s) := by
  induction ps generalizing s with
  | nil => exact ⟨hc, hw⟩
  | cons p ps ih =>
    obtain ⟨hc', hw'⟩ := commit_windows (p := p) (fun q hq => hp q (by simp_all)) hc hw
    have hcfg := (commit_frame s p).cfg
    rw [← hcfg] at hc' hp ⊢
    exact ih (fun q hq => hp q (List.mem_cons_of_mem p hq)) hc' hw'

/-- A delayed write reaches none of the program counters and nothing of the FPU. -/
theorem commit_control (s : State) (p : PendingWrite) :
    (commit s p).pc = s.pc ∧ (commit s p).npc = s.npc ∧ (commit s p).fq = s.fq ∧
      (commit s p).fpuQueue = s.fpuQueue ∧ (commit s p).fpuMode = s.fpuMode := by
  unfold commit
  split <;> exact ⟨rfl, rfl, rfl, rfl, rfl⟩

theorem commit_pending (s : State) (p : PendingWrite) : commit s p = { commit s p with pending := s.pending } := by
  unfold commit
  split <;> rfl

theorem foldl_commit_control (ps : List PendingWrite) (s : State) :
    (ps.foldl commit s).pc = s.pc ∧ (ps.foldl commit s).npc = s.npc ∧ (ps.foldl commit s).fq = s.fq ∧
      (ps.foldl commit s).fpuQueue = s.fpuQueue ∧ (ps.foldl commit s).fpuMode = s.fpuMode := by
  induction ps generalizing s with
  | nil => exact ⟨rfl, rfl, rfl, rfl, rfl⟩
  | cons p ps ih =>
    have h := ih (commit s p)
    have k := commit_control s p
    rw [k.1, k.2.1, k.2.2.1, k.2.2.2.1, k.2.2.2.2] at h
    exact h

/-- Some of the delayed writes commit and some are left. -/
theorem commitSome_keeps (s : State) (ps qs : List PendingWrite)
    (h : WindowsNamed s.cfg s.pending → WindowsNamed s.cfg ps ∧ WindowsNamed s.cfg qs) :
    Keeps s { ps.foldl commit s with pending := qs } := by
  obtain ⟨hpc, hnpc, hfq, hqueue, hmode⟩ := foldl_commit_control ps s
  have hf := foldl_commit_frame ps s
  constructor
  case cfg => exact hf.cfg
  case mem => exact fun hm => hf.mem ▸ hm
  case pc => exact fun hp => by unfold PcAligned at *; rwa [← hpc, ← hnpc] at hp
  case windows =>
    rintro ⟨⟨hc, hp⟩, hw⟩
    obtain ⟨hps, hqs⟩ := h hp
    obtain ⟨hc', hw'⟩ := foldl_commit_windows hps hc hw
    refine ⟨⟨?_, ?_⟩, hw'⟩
    · show (ps.foldl commit s).psr.cwp.toNat < (ps.foldl commit s).cfg.nwindows
      rwa [hf.cfg]
    · show WindowsNamed (ps.foldl commit s).cfg qs
      rwa [hf.cfg]
  case fpu =>
    intro hn
    unfold NoQueueNoDeferral at *
    show (ps.foldl commit s).cfg.fqPresent = false → (ps.foldl commit s).fq = [] ∧ _
    rw [hf.cfg, hfq]
    show s.cfg.fqPresent = false → s.fq = [] ∧ (ps.foldl commit s).fpuQueue = [] ∧ (ps.foldl commit s).fpuMode = _
    rwa [hqueue, hmode]

theorem commitAll_keeps (s : State) : Keeps s (commitAll s) :=
  commitSome_keeps s s.pending [] fun h => ⟨h, fun _ hp => nomatch hp⟩

theorem commitPending_keeps (s : State) : Keeps s (commitPending s) :=
  (commitAll_keeps s).trans (.elsewhere rfl)

theorem tickPending_keeps (s : State) : Keeps s (tickPending s) := by
  have turned : WindowsNamed s.cfg s.pending →
      WindowsNamed s.cfg (s.pending.map fun p => { p with countdown := p.countdown - 1 }) := by
    intro h p hp
    obtain ⟨q, hq, rfl⟩ := List.mem_map.mp hp
    exact h q hq
  refine commitSome_keeps s _ _ fun h => ⟨fun p hp => ?_, fun p hp => ?_⟩
  · exact turned h p (List.mem_filter.mp hp).1
  · exact turned h p (List.mem_filter.mp hp).1

theorem turn_keeps (s : State) : Keeps s (turn s) := by
  unfold turn
  simp only []
  split
  · exact tickPending_keeps s
  · exact (tickPending_keeps s).trans (.elsewhere rfl)

/-- A WRxxx: only that of the PSR has a condition, and `execWrpsr` checks it (43_state_regs_misc.md R573). -/
theorem delayWrite_keeps (s : State) (r : StateReg) (v : Word)
    (h : r = .psr → (v.extractLsb' 0 5).toNat < s.cfg.nwindows) : Keeps s (delayWrite s r v) := by
  have hr : Keeps s (rememberWrite s r v) := .elsewhere rfl
  have named : ∀ k, WindowsNamed s.cfg [⟨r, v, k⟩] := fun k p hp hreg => by
    obtain rfl := List.mem_singleton.mp hp
    exact h hreg
  unfold delayWrite
  simp only []
  split
  · rw [commit_pending]
    exact hr.trans (commitSome_keeps (rememberWrite s r v) [⟨r, v, 0⟩] _ fun hp => And.intro (named 0) hp)
  · refine hr.trans (commitSome_keeps (rememberWrite s r v) [] _ fun hp => ⟨(fun _ hq => nomatch hq), ?_⟩)
    intro p hq
    rcases List.mem_append.mp hq with hq | hq
    · exact hp p hq
    · exact named _ p hq

/-! ### The FPU -/

/-- A change of the FPU's queues and mode that an FPU without a queue cannot make. -/
theorem setFpu_keeps (s : State) (m : FpuMode) (ws : List FpWork) (q : List FqEntry)
    (h : NoQueueNoDeferral s → s.cfg.fqPresent = true) :
    Keeps s { s with fpuMode := m, fpuQueue := ws, fq := q } where
  cfg := rfl
  mem := id
  pc := id
  windows := id
  fpu hn hf := absurd ((h hn).symm.trans hf) (by decide)

theorem fqPresent_of_mode {s : State} (hm : s.fpuMode ≠ .execute) (h : NoQueueNoDeferral s) :
    s.cfg.fqPresent = true := by
  by_contra hf
  exact hm (h (by simpa using hf)).2.2

/-- Without a queue there is no work to end. -/
theorem fpEndWork_keeps (n : Nat) (s : State) : Keeps s (fpEndWork n s) := by
  have hr := (fpEndWork_frame n s).rest
  constructor
  case cfg => rw [hr]
  case mem => rw [hr]; exact id
  case pc => rw [hr]; exact id
  case windows => rw [hr]; exact id
  case fpu =>
    intro hn hf
    have hc : (fpEndWork n s).cfg = s.cfg := by rw [hr]
    rw [hc] at hf
    rw [fpEndWork_nil n s (hn hf).2.1]
    exact hn hf

theorem recordTrap_keeps (s : State) (t : Trap) : Keeps s (recordTrap s t) := by
  unfold recordTrap
  split
  · next r =>
    unfold recordFp
    simp only []
    split
    · next hm =>
      exact (setFpu_keeps s .exception [] _ (fqPresent_of_mode (by rw [hm]; simp))).trans (.elsewhere rfl)
    · exact .elsewhere rfl
  · exact .elsewhere rfl
  · exact .refl s

/-! ### Traps -/

theorem enterWindow_keeps (s : State) : Keeps s (enterWindow s) := by
  have hw : Keeps s { s with psr := { s.psr with
      et := false, ps := s.psr.s, s := true, cwp := cwpBelow s.cfg s.psr.cwp } } :=
    { cfg := rfl, mem := id, pc := id, fpu := id
      windows := fun h => ⟨⟨cwpBelow_lt s.cfg s.psr.cwp, h.1.2⟩, h.2⟩ }
  exact ((hw.trans (setReg_keeps _ 17#5 _)).trans (setReg_keeps _ 18#5 _)).trans
    (.elsewhere rfl)

/-- New program counters that are aligned. -/
theorem setPcs_keeps (s : State) (pc npc : Word) (h : pc.extractLsb' 0 2 = 0#2) (hn : npc.extractLsb' 0 2 = 0#2) :
    Keeps s { s with pc := pc, npc := npc } where
  cfg := rfl
  mem := id
  pc _ := ⟨h, hn⟩
  windows := id
  fpu := id

/-- Trap handlers stand at multiples of 16 (10_state.md R45). -/
theorem tbrWord_aligned (s : State) : (tbrWord s).extractLsb' 0 2 = 0#2 :=
  BitVec.extractLsb'_append_eq_of_add_le (v := 28) (w := 4) (by decide)

theorem enterTrap_keeps (t : Trap) (s : State) : Keeps s (enterTrap t s) :=
  (((recordTrap_keeps s t).trans (enterWindow_keeps _)).trans
    (.elsewhere (t := { enterWindow (recordTrap s t) with
        tbr := { (enterWindow (recordTrap s t)).tbr with tt := trapType t } }) rfl)).trans
    (setPcs_keeps _ _ _ (tbrWord_aligned _) (aligned_add (tbrWord_aligned _) (by decide)))

theorem enterError_keeps (s : State) : Keeps s (enterError s) :=
  .elsewhere rfl

theorem takeTrap_keeps (t : Trap) (s : State) : Keeps s (takeTrap t s) := by
  unfold takeTrap
  simp only []
  split
  · exact (commitPending_keeps s).trans (enterTrap_keeps t _)
  · exact (commitPending_keeps s).trans (enterError_keeps _)

theorem rettError_keeps (t : Trap) (s : State) : Keeps s (rettError t s) :=
  (commitPending_keeps s).trans (.elsewhere rfl)

theorem resetTrap_keeps (s : State) : Keeps s (resetTrap s) :=
  ((commitPending_keeps s).trans (enterWindow_keeps _)).trans
    { cfg := rfl, mem := id, windows := id
      pc := fun _ => ⟨rfl, (by decide : (4#32 : Word).extractLsb' 0 2 = 0#2)⟩
      fpu := fun _ _ => ⟨rfl, rfl, rfl⟩ }

end Sys2Proof.Machine
end

section
/-! Every step keeps the invariants and leaves a next state (`Keeps`; 70_reset_and_hazards.md R810): the families of
instructions first, then the dispatch over all of them, then the cycle around it. -/

namespace Sys2Proof.Machine

/-! ### From a result to a next state -/

/-- What a result keeps its outcome keeps, the trap taken. -/
theorem Keeps.out {s t : State} {r : Res} (ho : r.out = .next t) (h : r.All (Keeps s)) : Keeps s t :=
  Res.All.out (fun x u hu => hu.trans (takeTrap_keeps x u)) h ho

theorem Keeps.next {s t u : State} (h : Keeps s u) (ho : Host.Outcome.next u = (.next t : Host.Outcome State Fault Refusal)) :
    Keeps s t := by
  injection ho with ho
  exact ho ▸ h

/-- What every access keeps. -/
theorem Keeps.access (s : State) : ∀ u v, AccessFrame u v → Keeps s u → Keeps s v :=
  fun _ _ hf h => h.trans hf.keeps

theorem Keeps.work (s : State) : ∀ n u, Keeps s u → Keeps s (fpEndWork n u) :=
  fun n u h => h.trans (fpEndWork_keeps n u)

theorem Keeps.freg (s : State) : ∀ u n v, Keeps s u → Keeps s (setFreg u n v) :=
  fun u n v h => h.trans (setFreg_keeps u n v)

theorem Keeps.then_advance {s u : State} (h : Keeps s u) : Keeps s (advance u) := h.trans (advance_keeps u)

/-! ### Integer loads and stores -/

theorem loadInt_keeps (s : State) (asi : BitVec 8) (a : Word) (z : Size) (f : Word → Word) (rd : RegNum) :
    (loadInt s asi a z f rd).All (Keeps s) :=
  aligned_all (.refl s) (bind_all (memRead_all (.access s) (.refl s) ..) fun _ t h =>
    (h.trans (setReg_keeps t rd _)).then_advance)

theorem loadPair_keeps (s : State) (asi : BitVec 8) (a : Word) (rd : RegNum) :
    (loadPair s asi a rd).All (Keeps s) :=
  aligned_all (.refl s) (bind_all ((route_framed ..).all (.access s) (.refl s)) fun _ _ h =>
    bind_all ((readAt_framed ..).all (.access s) h) fun _ t h =>
      bind_all ((readAt_framed ..).all (.access s) (h.trans (setReg_keeps t _ _))) fun _ t h =>
        (h.trans (setReg_keeps t _ _)).then_advance)

theorem storeInt_keeps {s u : State} (h : Keeps s u) (asi : BitVec 8) (a : Word) (z : Size) (v : Word) :
    (storeInt u asi a z v).All (Keeps s) :=
  aligned_all h (bind_all (memWrite_all (.access s) h ..) fun _ _ h => h.then_advance)

theorem storePair_keeps (s : State) (asi : BitVec 8) (a : Word) (rd : RegNum) :
    (storePair s asi a rd).All (Keeps s) :=
  aligned_all (.refl s) (storeTwo_all (.access s) (.refl s) _ _ _ _ fun _ h => h.then_advance)

theorem atomic_keeps (s : State) (asi : BitVec 8) (a : Word) (z : Size) (v : Word) (rd : RegNum) :
    (atomic s asi a z v rd).All (Keeps s) := by
  refine aligned_all (.refl s) ?_
  split
  · exact .refl s
  · exact bind_all (memRead_all (.access s) (.refl s) ..) fun _ _ h =>
      bind_all (memWrite_all (.access s) h ..) fun _ t h => (h.trans (setReg_keeps t rd _)).then_advance

/-! ### The coprocessor -/

theorem cpDoes_keeps (s : State) (r : CpRequest) : Keeps s (cpDoes s r) := .elsewhere rfl

theorem cpAccepted_keeps {s : State} (r : CpRequest) {k : Res} (hk : k.All (Keeps s)) :
    (cpAccepted s r k).All (Keeps s) := cpAccepted_all (.refl s) (cpDoes_keeps s r) hk

theorem execLdc_keeps (rd rs1 : RegNum) (o : Operand2) (s t : State) (h : execLdc rd rs1 o s = .next t) :
    Keeps s t :=
  Keeps.out h (cpEnabled_all (.refl s) (aligned_all (.refl s) (cpAccepted_keeps _
    (bind_all (memRead_all (.access s) (.refl s) ..) fun _ u h => (h.trans (cpDoes_keeps u _)).then_advance))))

theorem execLddc_keeps (rd rs1 : RegNum) (o : Operand2) (s t : State) (h : execLddc rd rs1 o s = .next t) :
    Keeps s t := by
  refine Keeps.out h (cpEnabled_all (.refl s) (aligned_all (.refl s) (cpAccepted_keeps _
    (bind_all ((route_framed ..).all (.access s) (.refl s)) fun r _ h =>
      bind_all ((readAt_framed ..).all (.access s) h) fun v0 u h => ?_))))
  have h2 : (readAt u .second r.next (effectiveAddress s rs1 o + 4#32) .dword).All (Keeps s) :=
    (readAt_framed ..).all (.access s) h
  split
  · next hr =>
    rw [hr] at h2
    exact Keeps.then_advance (Keeps.trans h2 (cpDoes_keeps _ _))
  · next hr =>
    rw [hr] at h2
    exact Keeps.trans h2 (cpDoes_keeps _ _)

theorem execLdcsr_keeps (rs1 : RegNum) (o : Operand2) (s t : State) (h : execLdcsr rs1 o s = .next t) :
    Keeps s t :=
  Keeps.out h (cpEnabled_all (.refl s) (aligned_all (.refl s) (cpAccepted_keeps _
    (bind_all (memRead_all (.access s) (.refl s) ..) fun _ u h =>
      (h.trans ((cpDoes_keeps u _).trans (.elsewhere rfl))).then_advance))))

theorem execStc_keeps (rd rs1 : RegNum) (o : Operand2) (s t : State) (h : execStc rd rs1 o s = .next t) :
    Keeps s t :=
  Keeps.out h (cpEnabled_all (.refl s) (aligned_all (.refl s) (cpAccepted_keeps _
    (bind_all (memWrite_all (.access s) (.refl s) ..) fun _ u h => (h.trans (cpDoes_keeps u _)).then_advance))))

theorem execStdc_keeps (rd rs1 : RegNum) (o : Operand2) (s t : State) (h : execStdc rd rs1 o s = .next t) :
    Keeps s t :=
  Keeps.out h (cpEnabled_all (.refl s) (aligned_all (.refl s) (cpAccepted_keeps _
    (storeTwo_all (.access s) (.refl s) _ _ _ _ fun u h => (h.trans (cpDoes_keeps u _)).then_advance))))

theorem execStcsr_keeps (rs1 : RegNum) (o : Operand2) (s t : State) (h : execStcsr rs1 o s = .next t) :
    Keeps s t :=
  Keeps.out h (cpEnabled_all (.refl s) (aligned_all (.refl s) (cpAccepted_keeps _
    (bind_all (memWrite_all (.access s) (.refl s) ..) fun _ u h =>
      (h.trans (.elsewhere (t := { u with cp := cpAfter .storeCsr s.cp }) rfl)).then_advance))))

theorem execStdcq_keeps (rs1 : RegNum) (o : Operand2) (s t : State) (h : execStdcq rs1 o s = .next t) :
    Keeps s t := by
  refine Keeps.out h (privileged_all (.refl s) (cpEnabled_all (.refl s) (aligned_all (.refl s)
    (cpProvokes_all (.refl s) ?_))))
  split
  · exact cpAccepted_keeps _ (storeTwo_all (.access s) (.refl s) _ _ _ _ fun u h =>
      (h.trans ((cpDoes_keeps u _).trans (.elsewhere rfl))).then_advance)
  · exact .refl s

theorem cbccc_keeps (s : State) (cond : BitVec 4) (always a : Bool) (d : BitVec 22) :
    (cbccc s cond always a d).All (Keeps s) :=
  cpEnabled_all (.refl s) (cpAccepted_keeps _ (branch_keeps ..))

/-! ### The FPU -/

/-- In fp_exception there is a queue: an instruction that is not executed keeps that. -/
theorem fpInSequence_keeps {s : State} {k : Res} (hk : k.All (Keeps s)) : (fpInSequence s k).All (Keeps s) :=
  fpInSequence_all (fun hm => (setFpu_keeps s (.pending (fpRecord 4#3)) s.fpuQueue s.fq
    (fqPresent_of_mode (by rw [hm]; simp))).then_advance) fun _ => hk

theorem fpProvokes_keeps {s : State} {k : Res} (hk : k.All (Keeps s)) : (fpProvokes s k).All (Keeps s) :=
  fpProvokes_all (.refl s) fun _ => hk

theorem fpSettled_keeps {s : State} (depends : FpWork → Bool) {k : State → Res}
    (hk : ∀ u, Keeps s u → (k u).All (Keeps s)) : (fpSettled s depends k).All (Keeps s) :=
  fpSettled_all (.work s) (.refl s) depends hk

theorem evenFreg_keeps {s : State} {n : RegNum} {k : Res} (hk : k.All (Keeps s)) :
    (evenFreg s n k).All (Keeps s) := evenFreg_all (.work s) (.refl s) hk

/-- The checks of a floating-point load or store before it meets the state of the FPU. -/
theorem fpChecked_keeps {s : State} {a : Word} {z : Size} {k : Res} (hk : k.All (Keeps s)) :
    (fpEnabled s (aligned s a z (fpProvokes s k))).All (Keeps s) :=
  fpEnabled_all (.refl s) (aligned_all (.refl s) (fpProvokes_keeps hk))

theorem execLdf_keeps (rd rs1 : RegNum) (o : Operand2) (s t : State) (h : execLdf rd rs1 o s = .next t) :
    Keeps s t :=
  Keeps.out h (fpChecked_keeps (fpInSequence_keeps (fpSettled_keeps _ fun _ h =>
    fpBind_all (.freg s) (memRead_all (.access s) h ..) fun _ u h =>
      (h.trans (setFreg_keeps u rd _)).then_advance)))

theorem execLddf_keeps (rd rs1 : RegNum) (o : Operand2) (s t : State) (h : execLddf rd rs1 o s = .next t) :
    Keeps s t :=
  Keeps.out h (fpChecked_keeps (evenFreg_keeps (fpInSequence_keeps (fpSettled_keeps _ fun _ h =>
    fpBind_all (.freg s) ((route_framed ..).all (.access s) h) fun _ _ h =>
      fpBind_all (.freg s) ((readAt_framed ..).all (.access s) h) fun _ u h =>
        fpBind_all (.freg s) ((readAt_framed ..).all (.access s) (h.trans (setFreg_keeps u _ _))) fun _ u h =>
          (h.trans (setFreg_keeps u _ _)).then_advance))))

theorem execLdfsr_keeps (rs1 : RegNum) (o : Operand2) (s t : State) (h : execLdfsr rs1 o s = .next t) :
    Keeps s t :=
  Keeps.out h (fpChecked_keeps (fpInSequence_keeps (fpSettled_keeps _ fun _ h =>
    fpBind_all (.freg s) (memRead_all (.access s) h ..) fun v u h =>
      (h.trans (.elsewhere (t := { u with fsr := loadFsr u.cfg u.fsr v, fccWindow := 4 }) rfl)).then_advance)))

theorem execStf_keeps (rd rs1 : RegNum) (o : Operand2) (s t : State) (h : execStf rd rs1 o s = .next t) :
    Keeps s t :=
  Keeps.out h (fpChecked_keeps (fpSettled_keeps _ fun _ h => storeInt_keeps h ..))

theorem execStdf_keeps (rd rs1 : RegNum) (o : Operand2) (s t : State) (h : execStdf rd rs1 o s = .next t) :
    Keeps s t :=
  Keeps.out h (fpChecked_keeps (evenFreg_keeps (fpSettled_keeps _ fun _ h =>
    storeTwo_all (.access s) h _ _ _ _ fun _ h => h.then_advance)))

theorem execStfsr_keeps (rs1 : RegNum) (o : Operand2) (s t : State) (h : execStfsr rs1 o s = .next t) :
    Keeps s t :=
  Keeps.out h (fpChecked_keeps (fpSettled_keeps _ fun _ h =>
    bind_all (memWrite_all (.access s) h ..) fun _ u h =>
      (h.trans (.elsewhere (t := { u with fsr := { u.fsr with ftt := 0#3 } }) rfl)).then_advance))

theorem execStdfq_keeps (rs1 : RegNum) (o : Operand2) (s t : State) (h : execStdfq rs1 o s = .next t) :
    Keeps s t := by
  refine Keeps.out h (privileged_all (.refl s) (fpChecked_keeps (fpSettled_keeps _ fun u h => ?_)))
  split
  · next hq _ =>
    refine storeTwo_all (.access s) h _ _ _ _ fun v hv => ?_
    have hp : v.cfg.fqPresent = true := by rw [hv.cfg, ← h.cfg]; exact hq
    exact (hv.trans (setFpu_keeps v _ v.fpuQueue v.fq.tail fun _ => hp)).then_advance
  · exact h

/-- FPops: with a queue they are put into it, without one they end in their own step. -/
theorem fpop_keeps (s : State) (op : FpOp) (rd rs1 rs2 : RegNum) : (fpop s op rd rs1 rs2).All (Keeps s) := by
  have hazard : ∀ r : Res, r.All (Keeps s) → (fpThen op r).All (Keeps s) := by
    intro r hr
    cases r with
    | done u =>
      refine Keeps.trans hr ?_
      unfold fpHazard
      split
      · exact .elsewhere rfl
      · exact .refl u
    | trap t u => exact hr
  refine fpEnabled_all (.refl s) (fpProvokes_keeps (fpInSequence_keeps (hazard _ ?_)))
  split
  · next hq =>
    have hu := fpEndWork_keeps (fpSurplus s) s
    refine fpProvokes_all hu fun _ => Keeps.then_advance (hu.trans (setFpu_keeps _ _ _ _ fun _ => ?_))
    rw [hu.cfg]
    exact hq
  · unfold fpAtOnce
    split
    · next u hu =>
      obtain ⟨hmode, hqueue⟩ := fpExecute_mode hu
      have hr := (fpExecute_frame hu).rest
      refine Keeps.then_advance (SameControl.keeps ⟨?_, ?_, ?_, ?_, ?_, ?_, ?_, hqueue, hmode⟩ ?_) <;> rw [hr]
      exact id
    · exact .refl s

theorem fpUnassigned_keeps (s : State) (fpop2 : Bool) : (fpUnassigned s fpop2).All (Keeps s) := by
  unfold fpUnassigned
  split
  · exact .refl s
  · exact fpop_keeps ..

theorem fbfcc_keeps (s : State) (cond : BitVec 4) (always a : Bool) (d : BitVec 22) :
    (fbfcc s cond always a d).All (Keeps s) := by
  refine fpEnabled_all (.refl s) (fpProvokes_keeps (fpInSequence_keeps (fpSettled_keeps _ fun u h => ?_)))
  split
  · exact h.trans (branch_keeps ..)
  · exact (h.trans (.elsewhere (t := { u with freeDraws := u.freeDraws + 1 }) rfl)).trans (branch_keeps ..)

/-! ### Integer arithmetic -/

theorem taggedAddition_keeps (s : State) (rd rs1 : RegNum) (o : Operand2) (trap : Bool) :
    (taggedAddition s rd rs1 o trap).All (Keeps s) := by
  unfold taggedAddition
  simp only []
  split
  · exact .refl s
  · exact writeResultCc_keeps ..

theorem taggedSubtraction_keeps (s : State) (rd rs1 : RegNum) (o : Operand2) (trap : Bool) :
    (taggedSubtraction s rd rs1 o trap).All (Keeps s) := by
  unfold taggedSubtraction
  simp only []
  split
  · exact .refl s
  · exact writeResultCc_keeps ..

theorem writeProduct_keeps (s : State) (rd : RegNum) (p : BitVec 64) : Keeps s (writeProduct s rd p) :=
  (writeY_keeps s _).trans (writeResult_keeps ..)

theorem writeProductCc_keeps (s : State) (rd : RegNum) (p : BitVec 64) : Keeps s (writeProductCc s rd p) :=
  (writeY_keeps s _).trans (writeResultCc_keeps ..)

/-! ### Control transfer and state registers -/

theorem ticc_keeps (s : State) (taken : Bool) (rs1 : RegNum) (o : TrapOperand) :
    (ticc s taken rs1 o).All (Keeps s) := by
  unfold ticc
  split
  · exact .refl s
  · exact advance_keeps s

/-- The move of SAVE and RESTORE to a window that exists, and their result in it. -/
theorem moveWindow_keeps (s : State) (w : BitVec 5) (h : w.toNat < s.cfg.nwindows) (rd : RegNum) (v : Word) :
    Keeps s (advance (setReg { s with psr := { s.psr with cwp := w } } rd v)) :=
  ((setCwp_keeps s w h s.psr.et s.psr.s).trans (setReg_keeps _ rd v)).then_advance

theorem execSave_keeps (rd rs1 : RegNum) (o : Operand2) (s t : State) (h : execSave rd rs1 o s = .next t) :
    Keeps s t := by
  refine Keeps.out h ?_
  split
  · exact .refl s
  · exact moveWindow_keeps s _ (cwpBelow_lt ..) rd _

theorem execRestore_keeps (rd rs1 : RegNum) (o : Operand2) (s t : State) (h : execRestore rd rs1 o s = .next t) :
    Keeps s t := by
  refine Keeps.out h ?_
  split
  · exact .refl s
  · exact moveWindow_keeps s _ (cwpAbove_lt ..) rd _

/-- A transfer of control that changes `s` to `t` besides. -/
theorem Keeps.jump {s t : State} {target : Word} (h : Keeps s t) (hp : PcAligned s → target.extractLsb' 0 2 = 0#2) :
    Keeps s { t with pc := s.npc, npc := target } where
  cfg := h.cfg
  mem := h.mem
  pc hs := ⟨hs.2, hp hs⟩
  windows := h.windows
  fpu := h.fpu

theorem execCall_keeps (d : BitVec 30) (s t : State) (h : execCall d s = .next t) : Keeps s t :=
  Keeps.next ((setReg_keeps s 15#5 s.pc).jump (callTarget_aligned s d)) h

/-- The alignment test of a word address looks at its low two bits. -/
theorem low_bits_of_aligned {a : Word} (h : a.toNat % 4 = 0) : a.extractLsb' 0 2 = 0#2 := by
  apply BitVec.eq_of_toNat_eq
  simpa [BitVec.extractLsb'_toNat] using h

theorem execJmpl_keeps (rd rs1 : RegNum) (o : Operand2) (s t : State) (h : execJmpl rd rs1 o s = .next t) :
    Keeps s t := by
  refine Keeps.out h ?_
  unfold aligned
  split
  · next ha => exact (setReg_keeps s rd s.pc).jump fun _ => low_bits_of_aligned ha
  · exact .refl s

theorem execRett_keeps (rs1 : RegNum) (o : Operand2) (s t : State) (h : execRett rs1 o s = .next t) :
    Keeps s t := by
  refine Keeps.out h ?_
  split
  · exact privileged_all (.refl s) (.refl s)
  · split
    · exact rettError_keeps ..
    · split
      · exact rettError_keeps ..
      · split
        · exact rettError_keeps ..
        · next ha => exact (setCwp_keeps s _ (cwpAbove_lt ..) true s.psr.ps).jump fun _ => not_not.mp ha

theorem readStateReg_keeps (s : State) (rd : RegNum) (v : Word) : Keeps s (readStateReg s rd v) :=
  (setReg_keeps s rd v).then_advance

theorem execRdasr_keeps (rd rs1 : RegNum) (s t : State) (h : execRdasr rd rs1 s = .next t) : Keeps s t := by
  refine Keeps.out h (asrPrivilege_all (.refl s) ?_)
  split
  · exact Keeps.trans (t := { s with freeDraws := s.freeDraws + 1 }) (.elsewhere rfl) (readStateReg_keeps ..)
  · exact asrPresent_all (.refl s) (readStateReg_keeps ..)

/-- A delayed write of a register other than the PSR. -/
theorem delayWrite_then_advance {s : State} {r : StateReg} (v : Word) (h : r ≠ .psr) :
    Keeps s (advance (delayWrite s r v)) := (delayWrite_keeps s r v fun e => absurd e h).then_advance

theorem execWrasr_keeps (rd rs1 : RegNum) (o : Operand2) (s t : State) (h : execWrasr rd rs1 o s = .next t) :
    Keeps s t := by
  refine Keeps.out h (asrPrivilege_all (.refl s) ?_)
  split
  · exact advance_keeps s
  · exact asrPresent_all (.refl s) (delayWrite_then_advance _ (by simp))

theorem execWrpsr_keeps (rs1 : RegNum) (o : Operand2) (s t : State) (h : execWrpsr rs1 o s = .next t) :
    Keeps s t := by
  refine Keeps.out h (privileged_all (.refl s) ?_)
  split
  · exact .refl s
  · next hw => exact (delayWrite_keeps s .psr _ fun _ => Nat.lt_of_not_le hw).then_advance

theorem execFlush_keeps (rs1 : RegNum) (o : Operand2) (s t : State) (h : execFlush rs1 o s = .next t) :
    Keeps s t := by
  refine Keeps.out h ?_
  split
  · exact Keeps.then_advance (Keeps.elsewhere rfl)
  · exact .refl s
  · exact .refl s

/-! ### Every instruction -/

theorem exec_keeps (i : Instr) (s t : State) (h : exec i s = .next t) : Keeps s t := by
  cases i
  case ldsb | ldub | ldsh | lduh | ld => exact Keeps.out h (loadInt_keeps ..)
  case ldsba | lduba | ldsha | lduha | lda =>
    exact Keeps.out h (alternate_all (.refl s) fun _ _ => loadInt_keeps ..)
  case ldd => exact Keeps.out h (evenRd_all (.refl s) (loadPair_keeps ..))
  case ldda => exact Keeps.out h (alternate_all (.refl s) fun _ _ => evenRd_all (.refl s) (loadPair_keeps ..))
  case stb | sth | st => exact Keeps.out h (storeInt_keeps (.refl s) ..)
  case stba | stha | sta => exact Keeps.out h (alternate_all (.refl s) fun _ _ => storeInt_keeps (.refl s) ..)
  case std => exact Keeps.out h (evenRd_all (.refl s) (storePair_keeps ..))
  case stda => exact Keeps.out h (alternate_all (.refl s) fun _ _ => evenRd_all (.refl s) (storePair_keeps ..))
  case ldstub | swap => exact Keeps.out h (atomic_keeps ..)
  case ldstuba | swapa => exact Keeps.out h (alternate_all (.refl s) fun _ _ => atomic_keeps ..)
  case ldf => exact execLdf_keeps _ _ _ _ _ h
  case lddf => exact execLddf_keeps _ _ _ _ _ h
  case ldfsr => exact execLdfsr_keeps _ _ _ _ h
  case stf => exact execStf_keeps _ _ _ _ _ h
  case stdf => exact execStdf_keeps _ _ _ _ _ h
  case stfsr => exact execStfsr_keeps _ _ _ _ h
  case stdfq => exact execStdfq_keeps _ _ _ _ h
  case ldc => exact execLdc_keeps _ _ _ _ _ h
  case lddc => exact execLddc_keeps _ _ _ _ _ h
  case ldcsr => exact execLdcsr_keeps _ _ _ _ h
  case stc => exact execStc_keeps _ _ _ _ _ h
  case stdc => exact execStdc_keeps _ _ _ _ _ h
  case stcsr => exact execStcsr_keeps _ _ _ _ h
  case stdcq => exact execStdcq_keeps _ _ _ _ h
  case add | addx | sub | subx | and | andn | or | orn | xor | xnor | sll | srl | sra | sethi =>
    exact Keeps.next (writeResult_keeps ..) h
  case addcc | addxcc | subcc | subxcc | andcc | andncc | orcc | orncc | xorcc | xnorcc =>
    exact Keeps.next (writeResultCc_keeps ..) h
  case taddcc rd rs1 o => exact Keeps.out (r := taggedAddition s rd rs1 o false) h (taggedAddition_keeps ..)
  case tsubcc rd rs1 o => exact Keeps.out (r := taggedSubtraction s rd rs1 o false) h (taggedSubtraction_keeps ..)
  case taddcctv => exact Keeps.out h (taggedAddition_keeps ..)
  case tsubcctv => exact Keeps.out h (taggedSubtraction_keeps ..)
  case umul | smul => exact Keeps.next (writeProduct_keeps ..) h
  case umulcc | smulcc => exact Keeps.next (writeProductCc_keeps ..) h
  case mulscc => exact Keeps.next ((writeY_keeps s _).trans (writeResultCc_keeps ..)) h
  case udiv | sdiv => exact Keeps.out h (nonzeroDivisor_all (.refl s) (writeResult_keeps ..))
  case udivcc | sdivcc => exact Keeps.out h (nonzeroDivisor_all (.refl s) (writeResultCc_keeps ..))
  case nop => exact Keeps.next (advance_keeps s) h
  case stbar =>
    exact Keeps.next (Keeps.then_advance (u := { s with storeBarrierPending := true }) (.elsewhere rfl)) h
  case rdy => exact Keeps.next (readStateReg_keeps ..) h
  case rdpsr | rdwim | rdtbr => exact Keeps.out h (privileged_all (.refl s) (readStateReg_keeps ..))
  case rdasr => exact execRdasr_keeps _ _ _ _ h
  case wry => exact Keeps.next (delayWrite_then_advance _ (by simp)) h
  case wrwim | wrtbr => exact Keeps.out h (privileged_all (.refl s) (delayWrite_then_advance _ (by simp)))
  case wrpsr => exact execWrpsr_keeps _ _ _ _ h
  case wrasr => exact execWrasr_keeps _ _ _ _ _ h
  case flush => exact execFlush_keeps _ _ _ _ h
  case save => exact execSave_keeps _ _ _ _ _ h
  case restore => exact execRestore_keeps _ _ _ _ _ h
  case call => exact execCall_keeps _ _ _ h
  case jmpl => exact execJmpl_keeps _ _ _ _ _ h
  case rett => exact execRett_keeps _ _ _ _ h
  case unimp | unassignedOp2 | unassignedOp3Arith | unassignedOp3Mem => exact Keeps.out (r := .trap .illegalInstruction s) h (Keeps.refl s)
  case cpop1 | cpop2 =>
    exact Keeps.out h (cpEnabled_all (.refl s) (cpAccepted_keeps _ (cpDoes_keeps s _).then_advance))
  case fpop1Unassigned | fpop2Unassigned => exact Keeps.out h (fpUnassigned_keeps ..)
  case tn rs1 o => exact Keeps.out (r := ticc s (iccTest s.psr.icc 0#4) rs1 o) h (ticc_keeps ..)
  case ta rs1 o => exact Keeps.out (r := ticc s (iccTest s.psr.icc 8#4) rs1 o) h (ticc_keeps ..)
  case te | tle | tl | tleu | tcs | tneg | tvs | tne | tg | tge | tgu | tcc | tpos | tvc =>
    exact Keeps.out h (ticc_keeps ..)
  case bn | be | ble | bl | bleu | bcs | bneg | bvs | ba | bne | bg | bge | bgu | bcc | bpos | bvc =>
    exact Keeps.next (branch_keeps ..) h
  case fbn | fbne | fblg | fbul | fbl | fbug | fbg | fbu | fba | fbe | fbue | fbge | fbuge | fble | fbule | fbo =>
    exact Keeps.out h (fbfcc_keeps ..)
  case cbn | cb123 | cb12 | cb13 | cb1 | cb23 | cb2 | cb3 | cba | cb0 | cb03 | cb02 | cb023 | cb01 | cb013 | cb012 =>
    exact Keeps.out h (cbccc_keeps ..)
  all_goals exact Keeps.out h (fpop_keeps ..)

/-! ### The cycle -/

theorem privilegeOf_keeps (s : State) (i : Instr) {k : Res} (hk : k.All (Keeps s)) :
    (privilegeOf s i k).All (Keeps s) := by
  unfold privilegeOf
  split
  · split
    · split
      · exact .refl s
      · exact rettError_keeps ..
    · exact .refl s
  · exact hk

/-- What comes before an instruction keeps the invariants. -/
theorem beforeExecution_keeps {s : State} {w : Word} {i : Instr} {r : Res} (h : beforeExecution s w i = some r) :
    r.All (Keeps s) := by
  unfold beforeExecution at h
  split at h
  · injection h with h
    exact h ▸ Keeps.refl s
  · split at h
    · injection h with h
      exact h ▸ Keeps.refl s
    · split at h
      · injection h with h
        subst h
        unfold unimplementedTrap
        split
        · exact cpEnabled_all (.refl s) (.refl s)
        · exact privilegeOf_keeps s i (.refl s)
      · cases h

/-- What a step comes to before its instruction executes keeps the invariants. -/
def Prepared.Keeps (s : State) : Prepared → Prop
  | .ended o => ∀ t, o = .next t → Machine.Keeps s t
  | .run _ u => Machine.Keeps s u

theorem Prepared.keeps_next {s u : State} (h : Machine.Keeps s u) : (Prepared.ended (.next u)).Keeps s :=
  fun _ e => Machine.Keeps.next h e

theorem Prepared.Keeps.from {s u : State} {p : Prepared} (h : Machine.Keeps s u) (hp : p.Keeps u) : p.Keeps s := by
  cases p with
  | ended o => exact fun t e => h.trans (hp t e)
  | run i v => exact h.trans hp

theorem fetched_keeps (s : State) (w : Word) : (fetched s w).Keeps s := by
  unfold fetched
  simp only []
  refine .from (u := { s with
    instruction := w, fccWindow := fccTurn w s.fccWindow, recentWrites := tickRecent s.recentWrites }) (.elsewhere rfl) ?_
  split
  · exact fun _ e => nomatch e
  · split
    · next hb => exact fun _ e => Keeps.out e (beforeExecution_keeps hb)
    · exact Keeps.refl _

/-- Everything from the turn on (70_reset_and_hazards.md R810). -/
theorem fetchCycle_keeps (s : State) : (fetchCycle s).Keeps s := by
  have hf := fetch_framed s
  have skips (u : State) (h : Keeps s u) : Keeps s (skipAnnulled u) :=
    (h.trans (.elsewhere (t := { u with annul := false }) rfl)).then_advance
  unfold fetchCycle
  split
  · split
    · next h => exact Prepared.keeps_next (skips _ (by rw [h] at hf; exact hf.keeps))
    · next h => exact Prepared.keeps_next (skips _ (by rw [h] at hf; exact hf.keeps))
  · split
    · next h => exact .from (by rw [h] at hf; exact hf.keeps) (fetched_keeps ..)
    · next h =>
      exact Prepared.keeps_next (Keeps.trans (by rw [h] at hf; exact hf.keeps) (takeTrap_keeps ..))

theorem cpDefers_keeps (s : State) : Keeps s (cpDefers s) := by
  unfold cpDefers
  split
  · split
    · exact .elsewhere rfl
    · exact .refl s
  · exact .refl s

theorem executeCycle_keeps (s : State) : (executeCycle s).Keeps s := by
  unfold executeCycle
  split
  · exact Prepared.keeps_next (.elsewhere rfl)
  · simp only []
    refine .from ((fpEndWork_keeps s.now.fpuEnds s).trans (cpDefers_keeps _)) ?_
    split
    · exact Prepared.keeps_next (takeTrap_keeps ..)
    · exact .from (turn_keeps _) (fetchCycle_keeps _)

theorem prepare_keeps (s : State) : (prepare s).Keeps s := by
  unfold prepare
  refine .from (u := takeInputs s) (.elsewhere rfl) ?_
  simp only []
  split
  · refine Prepared.keeps_next ?_
    unfold resetCycle
    split
    · exact .refl _
    · exact resetTrap_keeps _
  · refine Prepared.keeps_next ?_
    unfold errorCycle
    split
    · exact .elsewhere rfl
    · split
      · exact resetTrap_keeps _
      · exact .refl _
  · exact executeCycle_keeps _

/-- A step keeps every invariant. -/
theorem step_keeps (s t : State) (h : step s = .next t) : Keeps s t := by
  have hp := prepare_keeps s
  unfold step at h
  split at h
  · next e =>
    rw [e] at hp
    exact hp t h
  · next e =>
    rw [e] at hp
    exact Keeps.trans hp (exec_keeps _ _ _ h)

/-- Settles O8. -/
theorem stepKeepsMemoryCanonical : Obligations.StepKeepsMemoryCanonical := by
  unfold Obligations.StepKeepsMemoryCanonical
  exact fun s t hm h => (step_keeps s t h).mem hm

/-- Settles O9. -/
theorem stepKeepsPcAndWindowsLegal : Obligations.StepKeepsPcAndWindowsLegal := by
  unfold Obligations.StepKeepsPcAndWindowsLegal
  exact ⟨fun s t hp h => (step_keeps s t h).pc hp, fun s t hw h => (step_keeps s t h).windows hw⟩

/-- Settles O10. -/
theorem stepKeepsFpuSynchronous : Obligations.StepKeepsFpuSynchronous := by
  unfold Obligations.StepKeepsFpuSynchronous
  exact fun s t hn h => ⟨(step_keeps s t h).fpu hn, (step_keeps s t h).cfg⟩

/-- Settles O11. -/
theorem resetState : Obligations.ResetState := by
  unfold Obligations.ResetState
  refine ⟨by decide, Memory.reset_wf, ⟨rfl, rfl⟩, ⟨by decide, fun _ hp => nomatch hp⟩, rfl, ?_⟩
  exact fun _ => ⟨rfl, rfl, rfl⟩

/-! ### No step stops -/

/-- A result is a next state: a trap is taken in the same step (60_exceptions.md R737). -/
theorem Res.out_next (r : Res) : ∃ t, r.out = .next t := by
  cases r with
  | done t => exact ⟨t, rfl⟩
  | trap x t => exact ⟨_, rfl⟩

/-- Every instruction completes or takes its trap: each meaning is a next state or a result. -/
theorem exec_next (i : Instr) (s : State) : ∃ t, exec i s = .next t := by
  cases i <;> first | exact ⟨_, rfl⟩ | exact Res.out_next _

/-- A step that ends before an instruction executes leaves a next state. -/
def Prepared.Goes : Prepared → Prop
  | .ended o => ∃ t, o = .next t
  | .run _ _ => True

/-- The decoder never stops a step: a fetched word has its four bytes. -/
theorem fetched_goes (s : State) (w : Word) : (fetched s w).Goes := by
  have hd := decode_bytesOfWord w []
  rw [List.append_nil] at hd
  unfold fetched
  simp only [hd]
  split
  · exact Res.out_next _
  · trivial

theorem fetchCycle_goes (s : State) : (fetchCycle s).Goes := by
  unfold fetchCycle
  split
  · split
    · exact ⟨_, rfl⟩
    · exact ⟨_, rfl⟩
  · split
    · exact fetched_goes ..
    · exact ⟨_, rfl⟩

theorem prepare_goes (s : State) : (prepare s).Goes := by
  unfold prepare
  simp only []
  split
  · exact ⟨_, rfl⟩
  · exact ⟨_, rfl⟩
  · unfold executeCycle
    split
    · exact ⟨_, rfl⟩
    · simp only []
      split
      · exact ⟨_, rfl⟩
      · exact fetchCycle_goes _

theorem step_next (s : State) : ∃ t, step s = .next t := by
  have hp := prepare_goes s
  unfold step
  split
  · next e =>
    rw [e] at hp
    exact hp
  · exact exec_next ..

/-- Settles O12, by induction on the length of the run. -/
theorem runsNeverStop : Obligations.RunsNeverStop := by
  unfold Obligations.RunsNeverStop
  intro s k
  induction k generalizing s with
  | zero => trivial
  | succ k ih =>
    obtain ⟨t, ht⟩ := step_next s
    exact ⟨t, ht, ih t⟩

end Sys2Proof.Machine
end

section
/-! The instruction cycle (70_reset_and_hazards.md R800 to R820): what the delayed writes, the FPU's work and the
fetch leave alone on the way to an instruction, and what a step then comes to. -/

namespace Sys2Proof.Machine

/-! ### What each part of the cycle leaves alone -/

/-- `t` differs from `s` at most in the five registers that are written with delay. -/
structure StateRegsFrame (s t : State) : Prop where
  rest : t = { s with y := t.y, psr := t.psr, wim := t.wim, tbr := t.tbr, asr := t.asr }

theorem StateRegsFrame.trans {s t u : State} (h : StateRegsFrame s t) (k : StateRegsFrame t u) :
    StateRegsFrame s u := by
  have h1 := h.rest
  have k1 := k.rest
  constructor
  rw [k1]
  rw [h1]

theorem commit_stateRegs (s : State) (p : PendingWrite) : StateRegsFrame s (commit s p) := by
  unfold commit
  split <;> exact ⟨rfl⟩

theorem foldl_commit_stateRegs (ps : List PendingWrite) (s : State) : StateRegsFrame s (ps.foldl commit s) := by
  induction ps generalizing s with
  | nil => exact ⟨rfl⟩
  | cons p ps ih => exact (commit_stateRegs s p).trans (ih (commit s p))

/-- tt is no field of a WRTBR (43_state_regs_misc.md R576). -/
theorem foldl_commit_tt (ps : List PendingWrite) (s : State) : (ps.foldl commit s).tbr.tt = s.tbr.tt := by
  induction ps generalizing s with
  | nil => rfl
  | cons p ps ih =>
    refine (ih (commit s p)).trans ?_
    unfold commit
    split <;> rfl

theorem commitAll_rest (s : State) :
    commitAll s = { s with
      y := (commitAll s).y, psr := (commitAll s).psr, wim := (commitAll s).wim, tbr := (commitAll s).tbr
      asr := (commitAll s).asr, pending := [] } :=
  congrArg (fun t : State => { t with pending := [] }) (foldl_commit_stateRegs s.pending s).rest

theorem tickPending_rest (s : State) :
    tickPending s = { s with
      y := (tickPending s).y, psr := (tickPending s).psr, wim := (tickPending s).wim, tbr := (tickPending s).tbr
      asr := (tickPending s).asr, pending := (tickPending s).pending } :=
  congrArg (fun t : State => { t with pending := (tickPending s).pending }) (foldl_commit_stateRegs _ s).rest

theorem turn_rest (s : State) :
    turn s = { s with
      y := (turn s).y, psr := (turn s).psr, wim := (turn s).wim, tbr := (turn s).tbr
      asr := (turn s).asr, pending := (turn s).pending, staleWords := (turn s).staleWords } := by
  have h := tickPending_rest s
  unfold turn
  simp only []
  split
  · rw [(tickPending_frame s).staleWords]
    exact h
  · exact congrArg (fun t : State => { t with staleWords := tickStale (tickPending s).staleWords }) h

@[simp] theorem turn_annul (s : State) : (turn s).annul = s.annul := by rw [turn_rest]
@[simp] theorem turn_pc (s : State) : (turn s).pc = s.pc := by rw [turn_rest]
@[simp] theorem turn_npc (s : State) : (turn s).npc = s.npc := by rw [turn_rest]
@[simp] theorem turn_now (s : State) : (turn s).now = s.now := by rw [turn_rest]
@[simp] theorem turn_cfg (s : State) : (turn s).cfg = s.cfg := by rw [turn_rest]
@[simp] theorem turn_mem (s : State) : (turn s).mem = s.mem := by rw [turn_rest]
@[simp] theorem turn_mmu (s : State) : (turn s).mmu = s.mmu := by rw [turn_rest]
@[simp] theorem turn_ioTrace (s : State) : (turn s).ioTrace = s.ioTrace := by rw [turn_rest]
@[simp] theorem turn_fccWindow (s : State) : (turn s).fccWindow = s.fccWindow := by rw [turn_rest]
@[simp] theorem turn_recentWrites (s : State) : (turn s).recentWrites = s.recentWrites := by rw [turn_rest]
@[simp] theorem turn_translating (s : State) : translating (turn s) = translating s := by
  unfold translating
  rw [turn_cfg, turn_mmu]

theorem cpDefers_rest (s : State) :
    cpDefers s = { s with cp := (cpDefers s).cp, cpPending := (cpDefers s).cpPending } := by
  unfold cpDefers
  split
  · split <;> rfl
  · rfl

/-- What ends before the turn: FPops, and an exception of the coprocessor becomes outstanding. -/
theorem unitsWork_rest (n : Nat) (s : State) :
    cpDefers (fpEndWork n s) = { s with
      fregs := (cpDefers (fpEndWork n s)).fregs, fsr := (cpDefers (fpEndWork n s)).fsr
      fpuMode := (cpDefers (fpEndWork n s)).fpuMode, fpuQueue := (cpDefers (fpEndWork n s)).fpuQueue
      cp := (cpDefers (fpEndWork n s)).cp, cpPending := (cpDefers (fpEndWork n s)).cpPending } := by
  rw [cpDefers_rest, (fpEndWork_frame n s).rest]

/-- Nothing ends and nothing becomes outstanding. -/
theorem unitsWork_none {s : State} (hn : s.now.fpuEnds = 0) (hc : s.now.cpDeferred = none) :
    cpDefers (fpEndWork s.now.fpuEnds s) = s := by
  rw [hn]
  show cpDefers s = s
  unfold cpDefers
  rw [hc]

/-! ### Interrupts -/

theorem irl_zero_not_taken (pil : BitVec 4) : ((0#4 : BitVec 4) == 15#4 || decide (pil < 0#4)) = false := by
  decide +revert

/-- Nothing interrupts without a request and without a machine check. -/
theorem interruptingTrap_none {s : State} (hm : s.now.machineCheck = none) (hi : s.now.irl = 0#4) :
    interruptingTrap s = none := by
  unfold interruptingTrap interruptTaken
  simp only [hm, hi, irl_zero_not_taken, Bool.and_false, Bool.false_eq_true, if_false, ite_self]

theorem prepare_execute {s : State} (hm : s.mode = .execute) : prepare s = executeCycle (takeInputs s) := by
  unfold prepare
  simp only [show (takeInputs s).mode = .execute from hm]

theorem step_of_ended {s : State} {o : Host.Outcome State Fault Refusal} (h : prepare s = .ended o) : step s = o := by
  rw [step, h]

theorem step_of_run {s t : State} {i : Instr} (h : prepare s = .run i t) : step s = exec i t := by
  rw [step, h]

/-- With nothing that interrupts the cycle goes on with the turn and the fetch. -/
theorem executeCycle_fetches {s : State} (hr : s.now.resetIn = false) (hm : s.now.machineCheck = none)
    (hi : s.now.irl = 0#4) :
    executeCycle s = fetchCycle (turn (cpDefers (fpEndWork s.now.fpuEnds s))) := by
  have hn : (cpDefers (fpEndWork s.now.fpuEnds s)).now = s.now := by rw [unitsWork_rest]
  unfold executeCycle
  simp only [hr, Bool.false_eq_true, if_false]
  rw [interruptingTrap_none (by rw [hn, hm]) (by rw [hn, hi])]

/-! ### The fetched instruction -/

theorem isFpop2Word_iff (w : Word) :
    isFpop2Word w = true ↔ w.toNat / 2 ^ 30 = 2 ∧ w.toNat / 2 ^ 19 % 64 = 0x35 := by
  have hw := w.isLt
  unfold isFpop2Word
  simp only [Bool.and_eq_true, beq_iff_eq, ← BitVec.toNat_inj, BitVec.extractLsb'_toNat, Nat.shiftRight_eq_div_pow,
    BitVec.toNat_ofNat]
  omega

theorem fccTurn_eq (w : Word) (k : Nat) :
    fccTurn w k = if w.toNat / 2 ^ 30 = 2 ∧ w.toNat / 2 ^ 19 % 64 = 0x35 then max (k - 1) 2 else k - 1 := by
  unfold fccTurn
  simp only [isFpop2Word_iff]
  split <;> simp

/-- With no machine check nothing comes before an implemented instruction, or an FPop. -/
theorem beforeExecution_none {s : State} {w : Word} (i : Instr) (hm : s.now.machineCheck = none)
    (hw : unimplemented s.cfg w = false ∨ isFpopWord w = true) : beforeExecution s w i = none := by
  have hu : (unimplemented s.cfg w && !isFpopWord w) = false := by
    rcases hw with h | h <;> simp [h]
  unfold beforeExecution
  simp only [hm, reduceCtorEq, if_false, hu, decide_false, Bool.false_and, Bool.false_eq_true]

theorem fetched_runs {s : State} {w : Word} {i : Instr} {rest : List Byte} (hm : s.now.machineCheck = none)
    (hw : unimplemented s.cfg w = false ∨ isFpopWord w = true) (hd : decode (bytesOfWord w) = .ok (i, rest)) :
    fetched s w =
      .run i { s with
        instruction := w, fccWindow := fccTurn w s.fccWindow, recentWrites := tickRecent s.recentWrites } := by
  unfold fetched
  simp only [hd]
  rw [beforeExecution_none i (by exact hm) (by exact hw)]

/-- Settles O4. -/
theorem stepRunsDecodedInstruction : Obligations.StepRunsDecodedInstruction := by
  unfold Obligations.StepRunsDecodedInstruction
  intro s i w rest n deferred hmode hnow hannul hw hd u runs
  have hu : u = turn (cpDefers (fpEndWork n (takeInputs s))) := rfl
  have hbefore := unitsWork_rest n (takeInputs s)
  have hunow : u.now = (takeInputs s).now := by rw [hu, turn_now, hbefore]
  have huannul : u.annul = false := by rw [hu, turn_annul, hbefore]; exact hannul
  have hfetched : ∀ v, fetch u = .ok w v → runs v := by
    intro v hv
    have hf := fetch_framed u
    rw [hv] at hf
    have hr := hf.rest
    have hvnow : v.now = u.now := by rw [hr]
    have hvcfg : v.cfg = s.cfg := by rw [hr, hu]; show (turn _).cfg = _; rw [turn_cfg, hbefore]; rfl
    have hvfcc : v.fccWindow = s.fccWindow := by
      rw [hr, hu]; show (turn _).fccWindow = _; rw [turn_fccWindow, hbefore]; rfl
    have hvrecent : v.recentWrites = s.recentWrites := by
      rw [hr, hu]; show (turn _).recentWrites = _; rw [turn_recentWrites, hbefore]; rfl
    have hcycle : executeCycle (takeInputs s) = fetchCycle u := by
      rw [executeCycle_fetches (by rw [hnow]; rfl) (by rw [hnow]; rfl) (by rw [hnow]; rfl), hnow]
    have hrun : fetchCycle u = .run i { v with
        instruction := w, fccWindow := fccTurn w v.fccWindow, recentWrites := tickRecent v.recentWrites } := by
      unfold fetchCycle
      rw [huannul, hv]
      simp only [Bool.false_eq_true, if_false]
      exact fetched_runs (by rw [hvnow, hunow, hnow]; rfl) (by rwa [hvcfg]) hd
    rw [fccTurn_eq, hvfcc, hvrecent] at hrun
    exact step_of_run ((prepare_execute hmode).trans (hcycle.trans hrun))
  refine ⟨hfetched, fun ht hi hk hword => hfetched u ?_⟩
  have hq : AccessQuiet u .fetch := accessQuiet_of_none (by rw [hunow, hnow]; rfl) .fetch
  have hcfg : u.cfg = s.cfg := by rw [hu, turn_cfg, hbefore]; rfl
  have hmem : u.mem = s.mem := by rw [hu, turn_mem, hbefore]; rfl
  have hpc : u.pc = s.pc := by rw [hu, turn_pc, hbefore]; rfl
  have hut : translating u = false := by rw [hu, turn_translating, hbefore]; exact ht
  rw [fetch_plain u hq hut (by rw [hcfg, hi]) (by rw [hcfg, hpc, hk]), hmem, hpc]
  exact congrArg (MemRes.ok · u) hword

/-! ### The annulled instruction -/

/-- In a state in which nothing is presented the cycle is the turn and the fetch. -/
theorem prepare_quiet {s : State} (hmode : s.mode = .execute) (hnow : (takeInputs s).now = Inputs.quiet) :
    prepare s = fetchCycle (turn (takeInputs s)) := by
  rw [prepare_execute hmode, executeCycle_fetches (by rw [hnow]; rfl) (by rw [hnow]; rfl) (by rw [hnow]; rfl),
    unitsWork_none (by rw [hnow]; rfl) (by rw [hnow]; rfl)]

/-- Whatever comes of the fetch of an annulled instruction, the step skips it. -/
theorem annulled_skips {s : State} (hmode : s.mode = .execute) (hnow : (takeInputs s).now = Inputs.quiet)
    (ha : s.annul = true) :
    (fetch (turn (takeInputs s))).All fun v =>
      step s = .next { v with annul := false, pc := s.npc, npc := s.npc + 4#32 } := by
  have hp := prepare_quiet hmode hnow
  have hua : (turn (takeInputs s)).annul = true := (turn_annul _).trans ha
  have hf := fetch_framed (turn (takeInputs s))
  have skip (v : State) (h : AccessFrame (turn (takeInputs s)) v) :
      skipAnnulled v = { v with annul := false, pc := s.npc, npc := s.npc + 4#32 } := by
    have hn : v.npc = s.npc := by rw [h.rest]; exact turn_npc _
    rw [← hn]
    rfl
  cases hv : fetch (turn (takeInputs s)) with
  | ok w v =>
    rw [hv] at hf
    exact (step_of_ended (hp.trans (by unfold fetchCycle; rw [hua, hv]; rfl))).trans (congrArg _ (skip v hf))
  | fault x v =>
    rw [hv] at hf
    exact (step_of_ended (hp.trans (by unfold fetchCycle; rw [hua, hv]; rfl))).trans (congrArg _ (skip v hf))

/-- What an untranslated fetch with nothing presented can do: draw free values and, of an I/O location, be seen by
its device. -/
def FetchedFrom (s t : State) : Prop :=
  t = { s with freeDraws := t.freeDraws, ioTrace := t.ioTrace } ∧
    (regionKind s.cfg (fetchAsi s) s.pc.toNat ≠ .io → t.ioTrace = s.ioTrace)

theorem fetchedWord_fetchedFrom (s : State) (pa : Nat) (w : Word) : FetchedFrom s (fetchedWord s pa w).2 := by
  unfold fetchedWord
  split
  · exact ⟨rfl, fun _ => rfl⟩
  · exact ⟨rfl, fun _ => rfl⟩

theorem fetch_untranslated (s : State) (hm : s.now.machineCheck = none) (ht : translating s = false) :
    (fetch s).All (FetchedFrom s) := by
  have hq := accessQuiet_of_none hm .fetch
  have hl (t : State) (hc : t.cfg = s.cfg) (hu : t.mmu = s.mmu) :
      locationKind t (fetchAsi s) s.pc s.pc.toNat = regionKind s.cfg (fetchAsi s) s.pc.toNat := by
    rw [locationKind_plain _ _ _ _ (by unfold translating at *; rwa [hc, hu]), hc]
  unfold fetch
  rw [route_plain s .fetch (fetchAsi s) s.pc false hq.1 (fetchAsi_architectural s) ht]
  cases hk : regionKind s.cfg (fetchAsi s) s.pc.toNat <;>
    simp only [MemRes.andThen, readAt, physicalRead, hq.2.1, hq.2.2, hl s rfl rfl, hk, Bool.false_eq_true, if_false,
      reduceCtorEq, ioRead]
  case realMemory => exact fetchedWord_fetchedFrom ..
  case rom => exact fetchedWord_fetchedFrom ..
  case io =>
    split
    · exact ⟨rfl, fun h => absurd hk h⟩
    · next h => exact absurd ((hl _ rfl rfl).trans hk) h
  case unmapped => exact ⟨rfl, fun _ => rfl⟩

/-- Settles O5. -/
theorem annulledInstructionSkipped : Obligations.AnnulledInstructionSkipped := by
  unfold Obligations.AnnulledInstructionSkipped
  intro s hmode hnow hannul u skips
  have hs : (fetch u).All skips := annulled_skips hmode hnow hannul
  refine ⟨fun w v hv => by rwa [hv] at hs, fun x v hv => by rwa [hv] at hs, fun ht => ?_⟩
  have hl := fetch_untranslated u (by rw [turn_now, hnow]; rfl) ((turn_translating _).trans ht)
  have completes (v : State) (h : skips v) (hv : FetchedFrom u v) :
      Completes (step s) fun t =>
        MemoryKept s t ∧
          (regionKind s.cfg (fetchAsi u) s.pc.toNat ≠ .io → t.ioTrace = s.ioTrace) ∧
            t = { u with
              annul := false, pc := s.npc, npc := s.npc + 4#32, freeDraws := t.freeDraws
              ioTrace := t.ioTrace } := by
    obtain ⟨hrest, hio⟩ := hv
    have hmem : v.mem = s.mem := by rw [hrest]; exact turn_mem _
    refine ⟨_, h, fun a => congrArg (Memory.read8 · a) hmem, fun hk => ?_, ?_⟩
    · have hcfg : u.cfg = s.cfg := turn_cfg _
      have hpc : u.pc = s.pc := turn_pc _
      rw [← hcfg, ← hpc] at hk
      exact (hio hk).trans (turn_ioTrace _)
    · exact congrArg (fun t : State => { t with annul := false, pc := s.npc, npc := s.npc + 4#32 }) hrest
  cases hv : fetch u with
  | ok w v =>
    rw [hv] at hs hl
    exact completes v hs hl
  | fault x v =>
    rw [hv] at hs hl
    exact completes v hs hl

/-! ### Interrupt requests -/

theorem foldl_commit_psr_other {ps : List PendingWrite} (s : State) (h : ∀ p ∈ ps, p.reg ≠ .psr) :
    (ps.foldl commit s).psr = s.psr := by
  induction ps generalizing s with
  | nil => rfl
  | cons p ps ih =>
    refine (ih (commit s p) fun q hq => h q (List.mem_cons_of_mem p hq)).trans ?_
    have hp := h p List.mem_cons_self
    unfold commit
    split
    case h_2 e => exact absurd e hp
    all_goals rfl

/-- PIL in the image of the PSR (10_state.md R31). -/
theorem pil_toNat (v : Word) : (v.extractLsb' 8 4).toNat = v.toNat / 256 % 16 := by
  simp [BitVec.extractLsb'_toNat, Nat.shiftRight_eq_div_pow]

/-! ### reset_mode and error_mode -/

theorem resetTrap_tt (s : State) : (resetTrap s).tbr.tt = s.tbr.tt := by
  have h : (enterWindow (commitPending s)).tbr = (commitPending s).tbr := by
    unfold enterWindow
    simp
  show (enterWindow (commitPending s)).tbr.tt = _
  rw [h]
  exact foldl_commit_tt s.pending s

theorem enterWindow_psr (s : State) :
    (enterWindow s).psr =
      { s.psr with et := false, ps := s.psr.s, s := true, cwp := cwpBelow s.cfg s.psr.cwp } := by
  unfold enterWindow
  simp

theorem enterWindow_pending (s : State) :
    (enterWindow s).pending = s.pending ∧ (enterWindow s).recentWrites = s.recentWrites := by
  unfold enterWindow
  simp

/-- What the reset trap leaves (70_reset_and_hazards.md R801 to R803). -/
theorem resetTrap_leaves (s : State) :
    let t := resetTrap s
    t.mode = .execute ∧ t.pbError = false ∧ t.pc = 0#32 ∧ t.npc = 4#32 ∧ t.psr.s = true ∧
      t.psr.et = false ∧ t.tbr.tt = s.tbr.tt ∧ t.annul = false ∧ t.pending = [] ∧
        t.recentWrites = [] ∧ t.fpuMode = .execute ∧ t.fpuQueue = [] ∧ t.fq = [] ∧
          t.cpPending = false ∧ t.storeBarrierPending = false ∧ t.psoMode = false ∧ t.staleWords = [] ∧
            t.mmu = { s.mmu with e := false, pso := false } ∧ MemoryKept s t ∧ t.fregs = s.fregs ∧
              t.cfg = s.cfg := by
  have hf := (commitPending_frame s).trans (enterWindow_frame (commitPending s))
  have hw := enterWindow_pending (commitPending s)
  have hp := enterWindow_psr (commitPending s)
  refine ⟨rfl, rfl, rfl, rfl, congrArg Psr.s hp, congrArg Psr.et hp, resetTrap_tt s, rfl, hw.1, hw.2, rfl, rfl, rfl,
    rfl, rfl, rfl, rfl, ?_, fun a => ?_, hf.fregs, hf.cfg⟩
  · exact congrArg (fun m : Mmu => { m with e := false, pso := false }) hf.mmu
  · exact congrArg (Memory.read8 · a) hf.mem

theorem prepare_reset {s : State} (hm : s.mode = .reset) : prepare s = .ended (.next (resetCycle (takeInputs s))) := by
  unfold prepare
  simp only [show (takeInputs s).mode = .reset from hm]

theorem prepare_error {s : State} (hm : s.mode = .error) : prepare s = .ended (.next (errorCycle (takeInputs s))) := by
  unfold prepare
  simp only [show (takeInputs s).mode = .error from hm]

/-- Settles O7. -/
theorem resetAndErrorModes : Obligations.ResetAndErrorModes := by
  unfold Obligations.ResetAndErrorModes
  intro s resets
  refine ⟨fun hm hr => ?_, fun hm hr hc => ?_, fun hm hr => ?_, fun hm hr => ?_, fun hm hr hc => ?_, fun hm hr => ?_⟩
  · rw [step_of_ended (prepare_error hm), errorCycle, if_pos hr]
  · rw [step_of_ended (prepare_error hm), errorCycle]
    simp only [hr, Bool.false_eq_true, if_false, show (takeInputs s).cfg.resetOnError = false from hc]
  · refine step_of_ended ((prepare_execute hm).trans ?_)
    rw [executeCycle, if_pos hr]
  · rw [step_of_ended (prepare_reset hm), resetCycle, if_pos hr]
  · refine ⟨resetTrap (takeInputs s), ?_, resetTrap_leaves (takeInputs s)⟩
    rw [step_of_ended (prepare_error hm), errorCycle]
    simp only [hr, Bool.false_eq_true, if_false, show (takeInputs s).cfg.resetOnError = true from hc, if_true]
  · refine ⟨resetTrap (takeInputs s), ?_, resetTrap_leaves (takeInputs s)⟩
    rw [step_of_ended (prepare_reset hm), resetCycle]
    simp only [hr, Bool.false_eq_true, if_false]

end Sys2Proof.Machine

namespace Sys2Proof

open Machine

theorem trapType_interruptLevel (level : BitVec 4) :
    trapType (.interruptLevel level) = 0x10#8 + level.setWidth 8 := by
  decide +revert

/-- Settles O6. -/
theorem interruptTaken : Obligations.InterruptTaken := by
  unfold Obligations.InterruptTaken
  intro s level hmode hnow p
  have hp : p = effectivePsr (takeInputs s) := rfl
  have hm : (takeInputs s).now.machineCheck = none := by rw [hnow]; rfl
  have hi : (takeInputs s).now.irl = level := by rw [hnow]
  have htrap : interruptingTrap (takeInputs s) =
      if p.et then Machine.interruptTaken (takeInputs s) else none := by
    unfold interruptingTrap
    simp only [hm, ← hp]
  have htaken : Machine.interruptTaken (takeInputs s) =
      if p.et && (level == 15#4 || decide (p.pil < level)) then some (.interruptLevel level) else none := by
    unfold Machine.interruptTaken
    simp only [← hp, hi]
  refine ⟨fun het hl => ⟨?_, trapType_interruptLevel level⟩, fun hn => ?_, fun hps => ?_, fun q r v k hq hr => ?_⟩
  · have hc : executeCycle (takeInputs s) = .ended (.next (takeTrap (.interruptLevel level) (takeInputs s))) := by
      have hr : (takeInputs s).now.resetIn = false := by rw [hnow]; rfl
      unfold executeCycle
      simp only [hr, Bool.false_eq_true, if_false, unitsWork_none (s := takeInputs s) (by rw [hnow]; rfl) (by rw [hnow]; rfl),
        htrap, htaken]
      simp [het, hl]
    exact step_of_ended ((prepare_execute hmode).trans hc)
  · rw [htrap, htaken]
    rcases hn with he | ⟨h15, hle⟩
    · simp [he]
    · simp [h15, BitVec.not_lt.mpr hle]
  · have h : p = s.psr := foldl_commit_psr_other (takeInputs s) hps
    rw [h]
    exact ⟨rfl, rfl⟩
  · have h : p = (writePsr (q.foldl commit (takeInputs s)) v).psr := by
      show ((takeInputs s).pending.foldl commit (takeInputs s)).psr = _
      rw [show (takeInputs s).pending = q ++ ⟨.psr, v, k⟩ :: r from hq, List.foldl_append, List.foldl_cons,
        foldl_commit_psr_other _ hr]
      rfl
    rw [h]
    exact ⟨rfl, pil_toNat v⟩

end Sys2Proof
end

section
/-! The operand forms and the integer instructions with one result (41_integer_alu.md): each word operation as the
arithmetic the spec states it in. -/

namespace Sys2Proof.Machine

/-! ### Operands -/

theorem toNat_low (v : Word) (n : Nat) : (v.extractLsb' 0 n).toNat = v.toNat % 2 ^ n := by
  simp [BitVec.extractLsb'_toNat]

/-- simm13 stands for the same signed number at every width (30_encoding.md R246). -/
theorem operand2_imm_toInt (s : State) (imm : BitVec 13) : (operand2 s (.imm imm)).toInt = imm.toInt :=
  BitVec.toInt_signExtend_of_le (by decide)

theorem effectiveAddress_imm (s : State) (rs1 : RegNum) (imm : BitVec 13) :
    effectiveAddress s rs1 (.imm imm) = BitVec.ofInt 32 ((reg s rs1).toInt + imm.toInt) := by
  rw [BitVec.ofInt_add, BitVec.ofInt_toInt]
  rfl

theorem trapNumber_reg (s : State) (rs1 rs2 : RegNum) :
    (trapNumber s rs1 (.reg rs2)).toNat = ((reg s rs1).toNat + (reg s rs2).toNat) % 128 := by
  show ((reg s rs1 + reg s rs2).extractLsb' 0 7).toNat = _
  rw [toNat_low, BitVec.toNat_add]
  omega

/-- The low seven bits of the sign-extended immediate are the immediate. -/
theorem trapNumber_imm (s : State) (rs1 : RegNum) (number : BitVec 7) :
    (trapNumber s rs1 (.imm number)).toNat = ((reg s rs1).toNat + number.toNat) % 128 := by
  show ((reg s rs1 + number.signExtend 32).extractLsb' 0 7).toNat = _
  have hn := number.isLt
  rw [toNat_low, BitVec.toNat_add, BitVec.toNat_signExtend, BitVec.toNat_setWidth]
  split <;> omega

theorem alternate_reg (s : State) (rs1 rs2 : RegNum) (asi : BitVec 8) (k : BitVec 8 → Word → Res)
    (hs : s.psr.s = true) : alternate s rs1 (.reg asi rs2) k = k asi (reg s rs1 + reg s rs2) := if_pos hs

theorem alternate_imm (s : State) (rs1 : RegNum) (imm : BitVec 13) (k : BitVec 8 → Word → Res)
    (hs : s.psr.s = true) : alternate s rs1 (.imm imm) k = .trap .illegalInstruction s := if_pos hs

theorem alternate_user (s : State) (rs1 : RegNum) (o : AltOperand) (k : BitVec 8 → Word → Res)
    (hs : s.psr.s = false) : alternate s rs1 o k = .trap .privilegedInstruction s := if_neg (by simp [hs])

/-- Settles O14. -/
theorem operandForms : Obligations.OperandForms := by
  unfold Obligations.OperandForms
  intro s rs1 rs2 imm shcnt number
  refine ⟨rfl, operand2_imm_toInt s imm, effectiveAddress_imm s rs1 imm, rfl, toNat_low _ 5, rfl,
    trapNumber_reg s rs1 rs2, trapNumber_imm s rs1 number, fun asi k => ⟨fun hs => ⟨?_, ?_⟩, fun hs o => ?_⟩⟩
  · rw [alternate_reg s rs1 rs2 asi k hs, BitVec.ofNat_add, BitVec.ofNat_toNat, BitVec.ofNat_toNat,
      BitVec.setWidth_eq, BitVec.setWidth_eq]
  · exact alternate_imm s rs1 imm k hs
  · exact alternate_user s rs1 o k hs

/-! ### SETHI, NOP and the shifts -/

/-- The next instruction, nothing written. -/
theorem advance_writesRegs (s : State) : WritesRegs (.next (advance s)) s [] s.psr.icc s.y :=
  ⟨advance s, rfl, ⟨fun _ hx => (List.not_mem_nil hx).elim, fun _ _ _ => rfl, fun _ _ => rfl⟩, fun _ => rfl, rfl⟩

theorem sethi_value (imm : BitVec 22) : (imm ++ 0#10 : BitVec (22 + 10)) = BitVec.ofNat 32 (imm.toNat * 1024) := by
  have hi := imm.isLt
  apply BitVec.eq_of_toNat_eq
  rw [BitVec.toNat_append, BitVec.toNat_ofNat, BitVec.toNat_ofNat, Nat.shiftLeft_eq]
  simp
  omega

theorem shiftCount_lt (s : State) (o : ShiftOperand) : shiftCount s o < 32 := by
  cases o with
  | reg rs2 => exact ((reg s rs2).extractLsb' 0 5).isLt
  | imm v => exact v.isLt

theorem shiftLeft_value (a : Word) (n : Nat) : a <<< n = BitVec.ofNat 32 (a.toNat * 2 ^ n) := by
  apply BitVec.eq_of_toNat_eq
  rw [BitVec.toNat_shiftLeft, BitVec.toNat_ofNat, Nat.shiftLeft_eq]

theorem ushiftRight_value (a : Word) (n : Nat) : a >>> n = BitVec.ofNat 32 (a.toNat / 2 ^ n) := by
  apply BitVec.eq_of_toNat_eq
  rw [BitVec.toNat_ushiftRight, BitVec.toNat_ofNat, Nat.shiftRight_eq_div_pow,
    Nat.mod_eq_of_lt (Nat.lt_of_le_of_lt (Nat.div_le_self _ _) a.isLt)]

theorem sshiftRight_value (a : Word) (n : Nat) : a.sshiftRight n = BitVec.ofInt 32 (a.toInt / 2 ^ n) := by
  rw [BitVec.sshiftRight_eq, Int.shiftRight_eq_div_pow, Nat.cast_pow, Nat.cast_ofNat]

/-- Settles O15. -/
theorem sethiNopAndShiftResults : Obligations.SethiNopAndShiftResults := by
  unfold Obligations.SethiNopAndShiftResults
  intro s rd rs1 imm o a n
  refine ⟨?_, advance_writesRegs s, shiftCount_lt s o, ?_, ?_, ?_⟩
  · rw [← sethi_value]
    exact writeResult_writesReg s rd _
  · rw [← shiftLeft_value]
    exact writeResult_writesReg s rd _
  · rw [← ushiftRight_value]
    exact writeResult_writesReg s rd _
  · rw [← sshiftRight_value]
    exact writeResult_writesReg s rd _

/-! ### Additions and subtractions -/

theorem carryWord_eq (s : State) : carryWord s = if s.psr.icc.c then 1#32 else 0#32 := by
  unfold carryWord
  cases s.psr.icc.c <;> rfl

/-- Settles O17. -/
theorem addSubtractResults : Obligations.AddSubtractResults := by
  unfold Obligations.AddSubtractResults
  intro s rd rs1 o a b c
  have hc : c = carryWord s := (carryWord_eq s).symm
  have hadd : a + b + 0#32 = a + b := BitVec.add_zero _
  have hsub : a - b - 0#32 = a - b := BitVec.sub_zero _
  rw [hc]
  refine ⟨?_, writeResult_writesReg s rd _, ?_, writeResult_writesReg s rd _, ?_,
    writeResultCc_writesReg s rd _ _, ?_, writeResultCc_writesReg s rd _ _⟩
  · rw [← hadd]
    exact writeResult_writesReg s rd _
  · rw [← hsub]
    exact writeResult_writesReg s rd _
  · rw [← hadd]
    exact writeResultCc_writesReg s rd _ _
  · rw [← hsub]
    exact writeResultCc_writesReg s rd _ _

/-! ### Tagged additions and subtractions -/

theorem tagged_eq (a b : Word) : tagged a b = (decide (a.toNat % 4 ≠ 0) || decide (b.toNat % 4 ≠ 0)) := by
  have h (v : Word) : (v.extractLsb' 0 2 != 0#2) = decide (v.toNat % 4 ≠ 0) := by
    rw [Bool.eq_iff_iff, bne_iff_ne, decide_eq_true_iff, ne_eq, ← BitVec.toNat_inj, toNat_low]
    rfl
  rw [tagged, h, h]

/-- A tagged operation `r` traps if its V is set and the form is a trapping one, else it writes its result. -/
theorem tagged_outcome {s : State} {rd : RegNum} {v : Word} {icc : Icc} {trap : Bool} {r : Res}
    (h : r = if trap && icc.v then .trap .tagOverflow s else .done (writeResultCc s rd v icc)) :
    (trap = false ∨ icc.v = false → WritesReg r.out s rd v icc) ∧
      (trap = true → icc.v = true → Traps r.out .tagOverflow s) := by
  subst h
  refine ⟨fun hn => ?_, fun ht hv => ?_⟩
  · have : (trap && icc.v) = false := by rcases hn with h | h <;> simp [h]
    rw [if_neg (by simp [this])]
    exact writeResultCc_writesReg s rd v icc
  · rw [if_pos (by simp [ht, hv])]
    rfl

/-- Settles O19. -/
theorem taggedResults : Obligations.TaggedResults := by
  unfold Obligations.TaggedResults
  intro s rd rs1 o a b tag addV subV
  have hadd (trap : Bool) := tagged_outcome (r := taggedAddition s rd rs1 o trap) rfl
  have hsub (trap : Bool) := tagged_outcome (r := taggedSubtraction s rd rs1 o trap) rfl
  have ha : iccTaggedAdd a b (a + b) = { iccAdd a b (a + b) with v := addV } := by
    show (⟨_, _, _ || tagged a b, _⟩ : Icc) = _
    rw [tagged_eq]
    rfl
  have hs : iccTaggedSub a b (a - b) = { iccSub a b (a - b) with v := subV } := by
    show (⟨_, _, _ || tagged a b, _⟩ : Icc) = _
    rw [tagged_eq]
    rfl
  refine ⟨?_, ?_, fun h => ?_, fun h => ?_, fun h => ?_, fun h => ?_⟩
  · rw [← ha]
    exact (hadd false).1 (.inl rfl)
  · rw [← hs]
    exact (hsub false).1 (.inl rfl)
  · rw [← h, ← ha]
    exact (hadd true).1 (.inr (by rw [ha]; exact h))
  · exact (hadd true).2 rfl (by rw [ha]; exact h)
  · rw [← h, ← hs]
    exact (hsub true).1 (.inr (by rw [hs]; exact h))
  · exact (hsub true).2 rfl (by rw [hs]; exact h)

end Sys2Proof.Machine
end

section
/-! MULScc, the multiplications and the divisions (41_integer_alu.md sections 9 to 11): products and quotients as
numbers, the high and the low word of a 64-bit value as its quotient and remainder by 2^32. -/

namespace Sys2Proof.Machine

/-! ### The halves of a doubleword and the bits of a word as numbers -/

theorem low_word_ofNat (u : Nat) : (BitVec.ofNat 64 u).extractLsb' 0 32 = BitVec.ofNat 32 u := by
  apply BitVec.eq_of_toNat_eq
  simp only [BitVec.extractLsb'_toNat, BitVec.toNat_ofNat, Nat.shiftRight_zero]
  omega

theorem high_word_ofNat (u : Nat) : (BitVec.ofNat 64 u).extractLsb' 32 32 = BitVec.ofNat 32 (u / 2 ^ 32) := by
  apply BitVec.eq_of_toNat_eq
  simp only [BitVec.extractLsb'_toNat, BitVec.toNat_ofNat, Nat.shiftRight_eq_div_pow]
  omega

theorem low_word_ofInt (p : Int) : (BitVec.ofInt 64 p).extractLsb' 0 32 = BitVec.ofInt 32 p := by
  apply BitVec.eq_of_toNat_eq
  simp only [BitVec.extractLsb'_toNat, BitVec.toNat_ofInt, Nat.shiftRight_zero]
  omega

theorem high_word_ofInt (p : Int) : (BitVec.ofInt 64 p).extractLsb' 32 32 = BitVec.ofInt 32 (p / 2 ^ 32) := by
  apply BitVec.eq_of_toNat_eq
  simp only [BitVec.extractLsb'_toNat, BitVec.toNat_ofInt, Nat.shiftRight_eq_div_pow]
  omega

/-- A bit above the high bits of a word: a shift right that the bit enters. -/
theorem shiftIn_value (c : Bool) (v : Word) :
    (BitVec.ofBool c ++ v.extractLsb' 1 31 : BitVec (1 + 31)) =
      BitVec.ofNat 32 ((if c then 2 ^ 31 else 0) + v.toNat / 2) := by
  have hv := v.isLt
  apply BitVec.eq_of_toNat_eq
  rw [BitVec.toNat_append, BitVec.toNat_ofNat, BitVec.extractLsb'_toNat,
    ← Nat.shiftLeft_add_eq_or_of_lt (Nat.mod_lt _ (by decide)), Nat.shiftLeft_eq, Nat.shiftRight_eq_div_pow]
  cases c <;> simp <;> omega

theorem lowBit_eq (v : Word) : v.extractLsb' 0 1 = BitVec.ofBool (decide (v.toNat % 2 = 1)) := by
  apply BitVec.eq_of_toNat_eq
  rw [toNat_low, BitVec.toNat_ofBool]
  rcases Nat.mod_two_eq_zero_or_one v.toNat with h | h <;> simp [h]

/-- Which word MULScc adds: by the low bit of Y. -/
theorem mulsccOperand_eq (y b : Word) :
    (if y.getLsbD 0 then b else 0#32) = if y.toNat % 2 = 0 then 0#32 else b := by
  have h : y.getLsbD 0 = decide (y.toNat % 2 = 1) := by simp [BitVec.getLsbD, Nat.testBit_zero]
  rw [h]
  rcases Nat.mod_two_eq_zero_or_one y.toNat with h' | h' <;> simp [h']

/-! ### Products -/

theorem writeProduct_writesRegs (s : State) (rd : RegNum) {p : BitVec 64} {low high : Word}
    (hl : p.extractLsb' 0 32 = low) (hh : p.extractLsb' 32 32 = high) :
    WritesRegs (.next (writeProduct s rd p)) s [(rd, low)] s.psr.icc high := by
  subst hl hh
  exact writeResultCc_writesRegs s rd (p.extractLsb' 0 32) s.psr.icc (p.extractLsb' 32 32)

theorem writeProductCc_writesRegs (s : State) (rd : RegNum) {p : BitVec 64} {low high : Word}
    (hl : p.extractLsb' 0 32 = low) (hh : p.extractLsb' 32 32 = high) :
    WritesRegs (.next (writeProductCc s rd p)) s [(rd, low)]
      ⟨low.getLsbD 31, decide (low = 0#32), false, false⟩ high := by
  subst hl hh
  rw [← iccLogic_eq]
  exact writeResultCc_writesRegs s rd _ _ _

/-- Settles O20. -/
theorem multiplyResults : Obligations.MultiplyResults := by
  unfold Obligations.MultiplyResults
  intro s rd rs1 o a b top op1 op2 u ulow uhigh p slow shigh icc
  refine ⟨?_, writeProduct_writesRegs s rd (low_word_ofNat u) (high_word_ofNat u),
    writeProduct_writesRegs s rd (low_word_ofInt p) (high_word_ofInt p),
    writeProductCc_writesRegs s rd (low_word_ofNat u) (high_word_ofNat u),
    writeProductCc_writesRegs s rd (low_word_ofInt p) (high_word_ofInt p)⟩
  have hop1 : (BitVec.ofBool (s.psr.icc.n ^^ s.psr.icc.v) ++ a.extractLsb' 1 31 : BitVec (1 + 31)) = op1 :=
    shiftIn_value _ a
  have hop2 : (if s.y.getLsbD 0 then b else 0#32) = op2 := mulsccOperand_eq s.y b
  have hy : (a.extractLsb' 0 1 ++ s.y.extractLsb' 1 31 : BitVec (1 + 31)) =
      BitVec.ofNat 32 (a.toNat % 2 * 2 ^ 31 + s.y.toNat / 2) := by
    rw [lowBit_eq, shiftIn_value]
    rcases Nat.mod_two_eq_zero_or_one a.toNat with h | h <;> simp [h]
  rw [← hop1, ← hop2, ← hy]
  exact writeResultCc_writesRegs s rd _ _ _

/-! ### Quotients -/

theorem dividend_toNat (s : State) (rs1 : RegNum) :
    (dividend s rs1).toNat = s.y.toNat * 2 ^ 32 + (reg s rs1).toNat := by
  rw [dividend, BitVec.toNat_append, ← Nat.shiftLeft_add_eq_or_of_lt (reg s rs1).isLt, Nat.shiftLeft_eq]

theorem dividend_toInt (s : State) (rs1 : RegNum) :
    (dividend s rs1).toInt = s.y.toInt * 2 ^ 32 + ((reg s rs1).toNat : Int) := by
  have hr := (reg s rs1).isLt
  have hn := dividend_toNat s rs1
  obtain ⟨-, hl, hi⟩ | ⟨-, hl, hi⟩ := sign_cases s.y <;>
    rw [BitVec.toInt_eq_toNat_cond, hn, hi] <;> split <;> push_cast <;> omega

theorem unsignedQuotient_eq (n : BitVec 64) (d : Word) :
    unsignedQuotient n d =
      (BitVec.ofNat 32 (min (n.toNat / d.toNat) (2 ^ 32 - 1)), decide (2 ^ 32 ≤ n.toNat / d.toNat)) := by
  unfold unsignedQuotient
  rcases Nat.lt_or_ge (n.toNat / d.toNat) (2 ^ 32) with h | h
  · rw [if_pos h, Nat.min_eq_left (by omega), decide_eq_false (by omega)]
  · rw [if_neg (by omega), Nat.min_eq_right (by omega), decide_eq_true h]
    rfl

/-- The clamp to the signed range, and the overflow by either method (41_integer_alu.md R462). -/
theorem signedQuotient_eq (methodB : Bool) (n : BitVec 64) (d : Word) :
    signedQuotient methodB n d =
      (BitVec.ofInt 32 (max (-(2 ^ 31)) (min (n.toInt.tdiv d.toInt) (2 ^ 31 - 1))),
        decide (n.toInt.tdiv d.toInt < -(2 ^ 31)) || decide (2 ^ 31 ≤ n.toInt.tdiv d.toInt) ||
          (methodB && decide (n.toInt.tdiv d.toInt = -(2 ^ 31)) && decide (n.toInt.tmod d.toInt ≠ 0))) := by
  unfold signedQuotient
  generalize n.toInt.tdiv d.toInt = q
  by_cases hlow : q < -(2 ^ 31)
  · rw [if_pos hlow, show max (-(2 ^ 31)) (min q (2 ^ 31 - 1)) = -(2 ^ 31) by omega, decide_eq_true hlow,
      Bool.true_or, Bool.true_or]
    rfl
  by_cases hhigh : 2 ^ 31 ≤ q
  · rw [if_neg hlow, if_pos hhigh, show max (-(2 ^ 31)) (min q (2 ^ 31 - 1)) = 2 ^ 31 - 1 by omega,
      decide_eq_true hhigh, Bool.or_true, Bool.true_or]
    rfl
  · rw [if_neg hlow, if_neg hhigh, show max (-(2 ^ 31)) (min q (2 ^ 31 - 1)) = q by omega,
      decide_eq_false hlow, decide_eq_false hhigh, Bool.false_or, Bool.false_or, bne, beq_eq_decide, beq_eq_decide,
      decide_not]

theorem iccDivide_eq (r : Word) (ovf : Bool) : iccDivide r ovf = ⟨r.getLsbD 31, decide (r = 0#32), ovf, false⟩ := by
  rw [iccDivide, msb_eq_bit31, beq_eq_decide]

theorem nonzeroDivisor_ne {s : State} {d : Word} (k : Res) (h : d ≠ 0#32) : nonzeroDivisor s d k = k := if_neg h

/-- A division by zero traps, whatever the form. -/
theorem nonzeroDivisor_zero {s : State} {d : Word} (k : Res) (h : d = 0#32) :
    Traps (nonzeroDivisor s d k).out .divisionByZero s := by
  rw [nonzeroDivisor, if_pos h]
  rfl

/-- A division by a nonzero divisor writes its quotient; the cc form its flags too. -/
theorem division_writesReg {s : State} {rd : RegNum} {d : Word} {q : Word × Bool} {v : Word} {ovf : Bool}
    (hd : d ≠ 0#32) (hq : q = (v, ovf)) :
    WritesReg (nonzeroDivisor s d (.done (writeResult s rd q.1))).out s rd v s.psr.icc ∧
      WritesReg (nonzeroDivisor s d (.done (writeResultCc s rd q.1 (iccDivide q.1 q.2)))).out s rd v
        ⟨v.getLsbD 31, decide (v = 0#32), ovf, false⟩ := by
  subst hq
  rw [nonzeroDivisor_ne _ hd, nonzeroDivisor_ne _ hd, ← iccDivide_eq]
  exact ⟨writeResult_writesReg s rd v, writeResultCc_writesReg s rd v _⟩

/-- Settles O21. -/
theorem divideResults : Obligations.DivideResults := by
  unfold Obligations.DivideResults
  intro s rd rs1 o d n q ures uover m k sres sover icc
  have hu : unsignedQuotient (dividend s rs1) d = (ures, uover) := by
    rw [unsignedQuotient_eq, dividend_toNat]
  have hs : signedQuotient s.cfg.sdivMethodB (dividend s rs1) d = (sres, sover) := by
    rw [signedQuotient_eq, dividend_toInt]
  refine ⟨fun hd => ?_, fun hd => ⟨nonzeroDivisor_zero _ hd, nonzeroDivisor_zero _ hd, nonzeroDivisor_zero _ hd,
    nonzeroDivisor_zero _ hd⟩⟩
  obtain ⟨hudiv, hudivcc⟩ := division_writesReg (rd := rd) hd hu
  obtain ⟨hsdiv, hsdivcc⟩ := division_writesReg (rd := rd) hd hs
  exact ⟨hudiv, hsdiv, hudivcc, hsdivcc⟩

end Sys2Proof.Machine
end

section
/-! Control transfer (42_control_transfer.md): the three tables of tests, and what a branch, a call, a return and a
software trap come to. -/

namespace Sys2Proof.Machine

/-! ### Targets -/

theorem times_four (v : Word) : 4#32 * v = v <<< 2 := by
  apply BitVec.eq_of_toNat_eq
  rw [BitVec.toNat_mul, BitVec.toNat_shiftLeft, Nat.shiftLeft_eq, Nat.mul_comm]
  rfl

theorem append_zeroes (n : Nat) (d : BitVec n) (i : Nat) :
    (d ++ 0#2 : BitVec (n + 2)).getLsbD i = (decide (2 ≤ i) && d.getLsbD (i - 2)) := by
  rw [BitVec.getLsbD_append]
  by_cases h : i < 2
  · simp [h]
  · simp [h, Nat.le_of_not_lt h]

theorem branchTarget_eq (s : State) (d : BitVec 22) : branchTarget s d = s.pc + 4#32 * d.signExtend 32 := by
  rw [branchTarget, times_four]
  congr 1
  apply BitVec.eq_of_getLsbD_eq
  intro i hi
  rw [BitVec.getLsbD_signExtend, BitVec.getLsbD_shiftLeft, BitVec.getLsbD_signExtend, append_zeroes,
    BitVec.msb_eq_getLsbD_last, append_zeroes, BitVec.msb_eq_getLsbD_last]
  by_cases h2 : i < 2
  · have : i < 22 + 2 := by omega
    simp [h2, this, hi]
  by_cases h24 : i < 24
  · have : i - 2 < 22 := by omega
    have : i - 2 < 32 := by omega
    simp [*, Nat.le_of_not_lt h2]
  · have : ¬ i - 2 < 22 := by omega
    have : i - 2 < 32 := by omega
    simp [*]

theorem callTarget_eq (s : State) (d : BitVec 30) : callTarget s d = s.pc + 4#32 * d.setWidth 32 := by
  rw [callTarget, times_four]
  congr 1
  apply BitVec.eq_of_getLsbD_eq
  intro i hi
  rw [append_zeroes, BitVec.getLsbD_shiftLeft, BitVec.getLsbD_setWidth]
  by_cases h2 : i < 2
  · simp [h2]
  · have : i - 2 < 32 := by omega
    simp [*, Nat.le_of_not_lt h2]

/-! ### The tables of tests -/

/-- The sixteen tests of icc (42_control_transfer.md R511, R546). -/
theorem iccTest_rows (c : Icc) :
    iccTest c 0#4 = false ∧ iccTest c 1#4 = c.z ∧ iccTest c 2#4 = (c.z || (c.n ^^ c.v)) ∧
      iccTest c 3#4 = (c.n ^^ c.v) ∧ iccTest c 4#4 = (c.c || c.z) ∧ iccTest c 5#4 = c.c ∧ iccTest c 6#4 = c.n ∧
        iccTest c 7#4 = c.v ∧ iccTest c 8#4 = true ∧ iccTest c 9#4 = !c.z ∧
          iccTest c 10#4 = !(c.z || (c.n ^^ c.v)) ∧ iccTest c 11#4 = !(c.n ^^ c.v) ∧
            iccTest c 12#4 = !(c.c || c.z) ∧ iccTest c 13#4 = !c.c ∧ iccTest c 14#4 = !c.n ∧
              iccTest c 15#4 = !c.v :=
  ⟨rfl, Bool.xor_false _, Bool.xor_false _, Bool.xor_false _, Bool.xor_false _, Bool.xor_false _, Bool.xor_false _,
    Bool.xor_false _, rfl, Bool.xor_true _, Bool.xor_true _, Bool.xor_true _, Bool.xor_true _, Bool.xor_true _,
    Bool.xor_true _, Bool.xor_true _⟩

/-! ### Branches -/

theorem branch_branches (s : State) (taken always a : Bool) (d : BitVec 22) :
    Branches (.next (branch s taken always a d)) s taken (if taken then always && a else a) d := by
  refine ⟨_, rfl, fun x => ?_, ?_⟩ <;> cases taken
  · rfl
  · rfl
  · rfl
  · exact congrArg (fun target => { s with pc := s.npc, npc := target, annul := s.annul || (always && a) })
      (branchTarget_eq s d)

/-- A conditional branch annuls when it is not taken. -/
theorem conditional_branches (s : State) (test a : Bool) (d : BitVec 22) :
    Branches (.next (branch s test false a d)) s test (!test && a) d := by
  have h := branch_branches s test false a d
  cases test
  · exact h
  · exact h

theorem bicc_branches {i : Instr} {s : State} {cond : BitVec 4} {test a : Bool} {d : BitVec 22}
    (hi : exec i s = .next (branch s (iccTest s.psr.icc cond) false a d)) (ht : iccTest s.psr.icc cond = test) :
    Branches (exec i s) s test (!test && a) d := by
  rw [hi, ht]
  exact conditional_branches s test a d

/-- Settles O22. -/
theorem integerBranches : Obligations.IntegerBranches := by
  unfold Obligations.IntegerBranches
  intro s a d c conditional
  obtain ⟨-, h1, h2, h3, h4, h5, h6, h7, -, h9, h10, h11, h12, h13, h14, h15⟩ := iccTest_rows c
  exact ⟨branch_branches s true true a d, branch_branches s false false a d, bicc_branches rfl h9,
    bicc_branches rfl h1, bicc_branches rfl h10, bicc_branches rfl h2, bicc_branches rfl h11, bicc_branches rfl h3,
    bicc_branches rfl h12, bicc_branches rfl h4, bicc_branches rfl h13, bicc_branches rfl h5, bicc_branches rfl h14,
    bicc_branches rfl h6, bicc_branches rfl h15, bicc_branches rfl h7⟩

/-! ### FBfcc -/

theorem fpEnabled_on {s : State} (k : Res) (h : efOn s = true) : fpEnabled s k = k := if_pos h

theorem fpProvokes_of_mode {s : State} (k : Res) (h : ∀ r, s.fpuMode ≠ .pending r) : fpProvokes s k = k := by
  unfold fpProvokes
  split
  · next r hr => exact absurd hr (h r)
  · rfl

theorem fpProvokes_execute {s : State} (k : Res) (h : s.fpuMode = .execute) : fpProvokes s k = k :=
  fpProvokes_of_mode k (by simp [h])

theorem fpInSequence_execute {s : State} (k : Res) (h : s.fpuMode = .execute) : fpInSequence s k = k := by
  unfold fpInSequence
  rw [h]

/-- The fcc that an FBfcc tests: in the hazard window it is free (70_reset_and_hazards.md R825; log 11). -/
def testedFcc (s : State) : BitVec 2 := if s.fccWindow = 0 then s.fsr.fcc else Config.hazardFcc s.freeDraws

/-- An FBfcc that waits for nothing is a branch on that fcc. -/
theorem fbfcc_ready {s : State} (hr : FpuReady s) (hi : Independent s FpWork.compares) (cond : BitVec 4)
    (always a : Bool) (d : BitVec 22) :
    fbfcc s cond always a d =
      .done (branch { s with freeDraws := if s.fccWindow = 0 then s.freeDraws else s.freeDraws + 1 }
        (fccTest (testedFcc s) cond) always a d) := by
  obtain ⟨hef, hm⟩ := hr
  rw [fbfcc, fpEnabled_on _ hef, fpProvokes_execute _ hm, fpInSequence_execute _ hm,
    fpSettled_independent s _ _ (by simp [hm]) hi, testedFcc]
  by_cases hw : s.fccWindow = 0
  · simp only [if_pos hw]
  · simp only [if_neg hw]

/-- Settles O23. -/
theorem floatingBranches : Obligations.FloatingBranches := by
  unfold Obligations.FloatingBranches
  intro s a d hr hi
  refine ⟨testedFcc s, fun hw => if_pos hw, ?_⟩
  intro e l g u branches conditional
  have always (i : Instr) (cond : BitVec 4) (alw test annuls : Bool) (he : exec i s = (fbfcc s cond alw a d).out)
      (ht : fccTest (testedFcc s) cond = test) (ha : (if test then alw && a else a) = annuls) :
      branches i test annuls := by
    obtain ⟨t, ho, hm, hf⟩ := branch_branches
      { s with freeDraws := if s.fccWindow = 0 then s.freeDraws else s.freeDraws + 1 } test alw a d
    rw [ha] at hf
    exact ⟨t, by rw [he, fbfcc_ready hr hi, ht]; exact ho, hm, hf⟩
  have cond (i : Instr) (c : BitVec 4) (test : Bool) (he : exec i s = (fbfcc s c false a d).out)
      (ht : fccTest (testedFcc s) c = test) : conditional i test :=
    always i c false test _ he ht (by cases test <;> rfl)
  exact ⟨always _ 8#4 true true a rfl rfl rfl, always _ 0#4 false false a rfl rfl rfl, cond _ 7#4 u rfl rfl,
    cond _ 6#4 g rfl rfl, cond _ 5#4 _ rfl rfl, cond _ 4#4 l rfl rfl, cond _ 3#4 _ rfl rfl, cond _ 2#4 _ rfl rfl,
    cond _ 1#4 _ rfl rfl, cond _ 9#4 e rfl rfl, cond _ 10#4 _ rfl rfl, cond _ 11#4 _ rfl rfl, cond _ 12#4 _ rfl rfl,
    cond _ 13#4 _ rfl rfl, cond _ 14#4 _ rfl rfl, cond _ 15#4 _ rfl rfl⟩

/-! ### CBccc -/

theorem cpEnabled_on {s : State} (k : Res) (h : ecOn s = true) : cpEnabled s k = k := if_pos h

theorem cpAccepted_pending {s : State} (request : CpRequest) (k : Res) (h : s.cpPending = true) :
    cpAccepted s request k = .trap .cpException s := if_pos h

theorem cpAccepted_exception {s : State} (request : CpRequest) (k : Res) (hp : s.cpPending = false)
    (h : s.now.cpException = true) : cpAccepted s request k = .trap .cpException (cpDoes s request) :=
  (if_neg (by simp [hp])).trans (if_pos h)

theorem cpAccepted_none {s : State} (request : CpRequest) (k : Res) (hp : s.cpPending = false)
    (h : s.now.cpException = false) : cpAccepted s request k = k :=
  (if_neg (by simp [hp])).trans (if_neg (by simp [h]))

/-- Settles O24. -/
theorem coprocessorBranches : Obligations.CoprocessorBranches := by
  unfold Obligations.CoprocessorBranches
  intro s a d hec c0 c1 c2 c3 excepts always conditional
  have row (i : Instr) (cond : BitVec 4) (alw test annuls : Bool) (he : exec i s = (cbccc s cond alw a d).out)
      (ht : cpTest s.cp.cc cond = test) (ha : (if test then alw && a else a) = annuls) :
      always i cond test annuls := by
    rw [cbccc, cpEnabled_on _ hec, ht] at he
    refine ⟨fun hp hx => ?_, fun hp => ?_, fun hp hx => ?_⟩
    · rw [he, cpAccepted_none _ _ hp hx, ← ha]
      exact branch_branches s test alw a d
    · rw [he, cpAccepted_pending _ _ hp]
      rfl
    · rw [he, cpAccepted_exception _ _ hp hx]
      rfl
  have cond (i : Instr) (c : BitVec 4) (test : Bool) (he : exec i s = (cbccc s c false a d).out)
      (ht : cpTest s.cp.cc c = test) : conditional i c test :=
    row i c false test _ he ht (by cases test <;> rfl)
  exact ⟨row _ 8#4 true true a rfl rfl rfl, row _ 0#4 false false a rfl rfl rfl, cond _ 7#4 c3 rfl rfl,
    cond _ 6#4 c2 rfl rfl, cond _ 5#4 _ rfl rfl, cond _ 4#4 c1 rfl rfl, cond _ 3#4 _ rfl rfl, cond _ 2#4 _ rfl rfl,
    cond _ 1#4 _ rfl rfl, cond _ 9#4 c0 rfl rfl, cond _ 10#4 _ rfl rfl, cond _ 11#4 _ rfl rfl, cond _ 12#4 _ rfl rfl,
    cond _ 13#4 _ rfl rfl, cond _ 14#4 _ rfl rfl, cond _ 15#4 _ rfl rfl⟩

/-! ### SAVE and RESTORE, CALL and JMPL -/

/-- A write of one register in a window that becomes the current one. -/
theorem moveWindow_completes (s : State) (cwp : BitVec 5) (rd : RegNum) (v : Word) :
    Completes (.next (advance (setReg { s with psr := { s.psr with cwp := cwp } } rd v))) fun t =>
      RegsWritten s t cwp [(rd, v)] ∧ MemoryKept s t ∧
        t = { s with
          pc := s.npc, npc := s.npc + 4#32, globals := t.globals, windowed := t.windowed
          psr := { s.psr with cwp := cwp } } := by
  refine ⟨_, rfl, setRegIn_regsWritten { s with psr := { s.psr with cwp := cwp } } cwp rd v, fun a => ?_, ?_⟩
  · rw [advance_mem, setReg_mem]
  · unfold setReg
    rw [setRegIn_frame]
    rfl

/-- Settles O25. -/
theorem saveRestoreResults : Obligations.SaveRestoreResults := by
  unfold Obligations.SaveRestoreResults
  intro s rd rs1 o v below above moves
  refine ⟨fun h => ?_, fun h => ?_, fun h => ?_, fun h => ?_⟩
  · have he : exec (.save rd rs1 o) s = _ := congrArg Res.out (if_neg (by rw [windowInvalid]; exact ne_true_of_eq_false h))
    rw [he]
    exact moveWindow_completes s below rd v
  · exact congrArg Res.out (if_pos h)
  · have he : exec (.restore rd rs1 o) s = _ := congrArg Res.out (if_neg (by rw [windowInvalid]; exact ne_true_of_eq_false h))
    rw [he]
    exact moveWindow_completes s above rd v
  · exact congrArg Res.out (if_pos h)

/-- The link register written, and on to the target behind the delay instruction. -/
theorem link_completes (s : State) (link : RegNum) (target : Word) :
    Completes (.next { setReg s link s.pc with pc := s.npc, npc := target }) fun t =>
      RegsWritten s t s.psr.cwp [(link, s.pc)] ∧ MemoryKept s t ∧
        t = { s with pc := s.npc, npc := target, globals := t.globals, windowed := t.windowed } := by
  refine ⟨_, rfl, setRegIn_regsWritten s s.psr.cwp link s.pc, fun a => ?_, ?_⟩
  · rw [setReg_mem]
  · unfold setReg
    rw [setRegIn_frame]

theorem aligned_of_mod {s : State} {a : Word} {size : Size} (k : Res) (h : a.toNat % size.alignment = 0) :
    aligned s a size k = k := if_pos h

theorem aligned_of_mod_ne {s : State} {a : Word} {size : Size} (k : Res) (h : a.toNat % size.alignment ≠ 0) :
    aligned s a size k = .trap .memAddressNotAligned s := if_neg h

/-- Settles O26. -/
theorem callAndJumpResults : Obligations.CallAndJumpResults := by
  unfold Obligations.CallAndJumpResults
  intro s disp rd rs1 o target links
  refine ⟨?_, fun h => ?_, fun h => congrArg Res.out (aligned_of_mod_ne (size := .word) _ h)⟩
  · rw [← callTarget_eq]
    exact link_completes s 15#5 _
  · have he : exec (.jmpl rd rs1 o) s = _ := congrArg Res.out (aligned_of_mod (size := .word) _ h)
    rw [he]
    exact link_completes s rd target

/-! ### RETT -/

theorem low_bits_zero_iff (v : Word) : v.extractLsb' 0 2 = 0#2 ↔ v.toNat % 4 = 0 := by
  rw [← BitVec.toNat_inj, toNat_low]
  rfl

theorem privileged_supervisor {s : State} (k : Res) (h : s.psr.s = true) : privileged s k = k := if_pos h

theorem privileged_user {s : State} (k : Res) (h : s.psr.s = false) :
    privileged s k = .trap .privilegedInstruction s := if_neg (by simp [h])

/-- Settles O27. -/
theorem returnFromTrap : Obligations.ReturnFromTrap := by
  unfold Obligations.ReturnFromTrap
  intro s rs1 o out target above invalid fails
  have hal : target.extractLsb' 0 2 ≠ 0#2 ↔ target.toNat % 4 ≠ 0 := not_congr (low_bits_zero_iff target)
  have supervisor (hs : s.psr.s = true) : ¬(!s.psr.s) = true := by simp [hs]
  refine ⟨fun het hs hi ht => ⟨_, congrArg Res.out ((if_neg (ne_true_of_eq_false het)).trans
      ((if_neg (supervisor hs)).trans ((if_neg (ne_true_of_eq_false hi)).trans (if_neg fun h => hal.mp h ht)))),
      fun _ => rfl, rfl⟩,
    fun het => ⟨fun hs => ?_, fun hs hi => ?_, fun hs hi ht => ?_⟩, fun het hs => ?_, fun het hs => ?_⟩
  · exact congrArg Res.out ((if_neg (ne_true_of_eq_false het)).trans (if_pos (by simp [hs])))
  · exact congrArg Res.out ((if_neg (ne_true_of_eq_false het)).trans ((if_neg (supervisor hs)).trans (if_pos hi)))
  · exact congrArg Res.out ((if_neg (ne_true_of_eq_false het)).trans ((if_neg (supervisor hs)).trans
      ((if_neg (ne_true_of_eq_false hi)).trans (if_pos (hal.mpr ht)))))
  · exact congrArg Res.out ((if_pos het).trans (privileged_supervisor _ hs))
  · exact congrArg Res.out ((if_pos het).trans (privileged_user _ hs))

/-! ### Ticc -/

theorem trapType_trapInstruction (n : BitVec 7) : trapType (.trapInstruction n) = 128#8 + n.setWidth 8 := by
  have hn := n.isLt
  apply BitVec.eq_of_toNat_eq
  show (1#1 ++ n : BitVec (1 + 7)).toNat = _
  rw [BitVec.toNat_append, ← Nat.shiftLeft_add_eq_or_of_lt hn, BitVec.toNat_add, BitVec.toNat_setWidth,
    Nat.shiftLeft_eq]
  simp
  omega

/-- Settles O28. -/
theorem softwareTraps : Obligations.SoftwareTraps := by
  unfold Obligations.SoftwareTraps
  intro s rs1 o c tests
  have row (i : Instr) (cond : BitVec 4) {test : Bool}
      (he : exec i s = (ticc s (iccTest s.psr.icc cond) rs1 o).out) (ht : iccTest s.psr.icc cond = test) :
      tests i test := by
    rw [ht] at he
    refine ⟨fun h => ⟨?_, trapType_trapInstruction _⟩, fun h => ?_⟩
    · rw [he, ticc, if_pos h]
      rfl
    · rw [he, ticc, if_neg (by simp [h])]
      exact advance_writesRegs s
  obtain ⟨h0, h1, h2, h3, h4, h5, h6, h7, h8, h9, h10, h11, h12, h13, h14, h15⟩ := iccTest_rows c
  exact ⟨row _ _ rfl h8, row _ _ rfl h0, row _ _ rfl h9, row _ _ rfl h1, row _ _ rfl h10, row _ _ rfl h2,
    row _ _ rfl h11, row _ _ rfl h3, row _ _ rfl h12, row _ _ rfl h4, row _ _ rfl h13, row _ _ rfl h5,
    row _ _ rfl h14, row _ _ rfl h6, row _ _ rfl h15, row _ _ rfl h7⟩

end Sys2Proof.Machine
end

section
/-! Traps (60_exceptions.md): what entering one commits, saves and records, and the privileged, illegal and disabled
instructions. -/

namespace Sys2Proof.Machine

/-! ### Several registers written -/

theorem regIn_congr {s t : State} (hc : t.cfg = s.cfg) (hg : t.globals = s.globals) (hw : t.windowed = s.windowed)
    (w : BitVec 5) (n : RegNum) : regIn t w n = regIn s w n := by
  simp only [regIn, hc, hg, hw]

/-- What the listed registers hold depends on the register files alone. -/
theorem RegsWritten.congr {s t u : State} {w : BitVec 5} {xs : List (RegNum × Word)} (h : RegsWritten s t w xs)
    (hc : u.cfg = t.cfg) (hg : u.globals = t.globals) (hw : u.windowed = t.windowed) : RegsWritten s u w xs := by
  obtain ⟨hv, hglob, hwin⟩ := h
  refine ⟨fun x hx h0 => ?_, fun n hn hx => ?_, fun k hk => ?_⟩
  · rw [regIn_congr hc hg hw]
    exact hv x hx h0
  · rw [regIn_congr hc hg hw]
    exact hglob n hn hx
  · rw [hw]
    exact hwin k hk

theorem RegsWritten.refl (s : State) (w : BitVec 5) : RegsWritten s s w [] :=
  ⟨fun _ hx => (List.not_mem_nil hx).elim, fun _ _ _ => rfl, fun _ _ => rfl⟩

/-- One more register written. -/
theorem RegsWritten.snoc {s t : State} {w : BitVec 5} {xs : List (RegNum × Word)} (h : RegsWritten s t w xs)
    (hc : t.cfg = s.cfg) (m : RegNum) (v : Word) (hm : ∀ x ∈ xs, x.1 ≠ m) :
    RegsWritten s (setRegIn t w m v) w (xs ++ [(m, v)]) := by
  obtain ⟨hv, hglob, hwin⟩ := h
  refine ⟨fun x hx h0 => ?_, fun n hn hx => ?_, fun k hk => ?_⟩
  · rcases List.mem_append.mp hx with hx | hx
    · rw [regIn_setRegIn_ne t w m x.1 v (hm x hx)]
      exact hv x hx h0
    · obtain rfl := List.mem_singleton.mp hx
      exact regIn_setRegIn_same t w m v h0
  · rw [regIn_setRegIn_ne t w m n v (hx (m, v) (by simp))]
    exact hglob n hn fun x hx' => hx x (by simp [hx'])
  · have hlast := hk (m, v) (by simp)
    rw [← hc] at hlast
    rw [setRegIn_windowed_getElem_ne hlast]
    exact hwin k fun x hx' => hk x (by simp [hx'])

/-! ### Fields of a register as a number -/

theorem append_toNat {n m : Nat} (x : BitVec n) (y : BitVec m) : (x ++ y).toNat = x.toNat * 2 ^ m + y.toNat := by
  rw [BitVec.toNat_append, ← Nat.shiftLeft_add_eq_or_of_lt y.isLt, Nat.shiftLeft_eq]

theorem tbrWord_eq (s : State) : tbrWord s = BitVec.ofNat 32 (s.tbr.tba.toNat * 4096 + s.tbr.tt.toNat * 16) := by
  have ha := s.tbr.tba.isLt
  have ht := s.tbr.tt.isLt
  apply BitVec.eq_of_toNat_eq
  rw [tbrWord, append_toNat, append_toNat, BitVec.toNat_ofNat]
  simp
  omega

/-! ### The delayed writes commit first -/

/-- A commit neither reads nor changes the queue it comes from. -/
theorem commit_withPending (s : State) (q : List PendingWrite) (p : PendingWrite) :
    commit { s with pending := q } p = { commit s p with pending := q } := by
  unfold commit
  cases p.reg <;> rfl

theorem foldl_commit_withPending (ps q : List PendingWrite) (s : State) :
    ps.foldl commit { s with pending := q } = { ps.foldl commit s with pending := q } := by
  induction ps generalizing s with
  | nil => rfl
  | cons p ps ih => rw [List.foldl_cons, List.foldl_cons, commit_withPending, ih]

theorem commitPending_of_nil {s : State} (h : s.pending = []) : commitPending s = { s with recentWrites := [] } := by
  unfold commitPending commitAll
  rw [h, List.foldl_nil, ← h]

theorem commitPending_of_cons {s : State} {p : PendingWrite} {rest : List PendingWrite} (h : s.pending = p :: rest) :
    commitPending s = commitPending { commit s p with pending := rest } := by
  show ({ s.pending.foldl commit s with pending := [], recentWrites := [] } : State) =
    { rest.foldl commit { commit s p with pending := rest } with pending := [], recentWrites := [] }
  rw [h, List.foldl_cons, foldl_commit_withPending rest rest]

theorem takeTrap_commitPending (x : Trap) (s : State) : takeTrap x s = takeTrap x (commitPending s) := by
  unfold takeTrap
  rw [commitPending_of_nil (s := commitPending s) rfl]
  rfl

/-! ### Trap entry -/

/-- A trap type that holds a number in its low bits is the first of its kind plus the number. -/
theorem numbered_value {k n : Nat} (b : BitVec k) (v : BitVec n) :
    b ++ v = BitVec.ofNat (k + n) (b.toNat * 2 ^ n + v.toNat) := by
  apply BitVec.eq_of_toNat_eq
  rw [append_toNat, BitVec.toNat_ofNat, Nat.mod_eq_of_lt]
  rw [← append_toNat]
  exact (b ++ v).isLt

/-- What a trap records is in the FPU and the coprocessor's outstanding exception alone. -/
theorem recordTrap_rest (s : State) (x : Trap) :
    recordTrap s x = { s with
      cpPending := s.cpPending && decide (x ≠ .cpException)
      fsr := (recordTrap s x).fsr, fpuMode := (recordTrap s x).fpuMode
      fpuQueue := (recordTrap s x).fpuQueue, fq := (recordTrap s x).fq } := by
  cases x
  case fpException r =>
    show recordFp s r = { s with
      cpPending := s.cpPending && true
      fsr := (recordFp s r).fsr, fpuMode := (recordFp s r).fpuMode
      fpuQueue := (recordFp s r).fpuQueue, fq := (recordFp s r).fq }
    rw [Bool.and_true]
    unfold recordFp
    simp only []
    split <;> rfl
  case cpException =>
    show ({ s with cpPending := false } : State) = { s with cpPending := s.cpPending && false }
    rw [Bool.and_false]
  all_goals
    show s = { s with cpPending := s.cpPending && true }
    rw [Bool.and_true]

/-- Entering the new window: the saved program counters are all that the register files take. -/
theorem enterWindow_rest (s : State) :
    enterWindow s = { s with
      psr := { s.psr with et := false, ps := s.psr.s, s := true, cwp := cwpBelow s.cfg s.psr.cwp }
      globals := (enterWindow s).globals, windowed := (enterWindow s).windowed, annul := false } := by
  unfold enterWindow setReg
  simp only []
  rw [setRegIn_frame]
  conv => lhs; rw [setRegIn_frame]
  rfl

/-- The state whose register files trap entry writes. -/
theorem enterWindow_regsWritten (s : State) :
    RegsWritten s (enterWindow s) (cwpBelow s.cfg s.psr.cwp)
      [(17#5, if s.annul then s.npc else s.pc), (18#5, if s.annul then s.npc + 4#32 else s.npc)] := by
  have hpcs : savedPcs s = (if s.annul then s.npc else s.pc, if s.annul then s.npc + 4#32 else s.npc) := by
    unfold savedPcs
    split <;> rfl
  let u : State :=
    { s with psr := { s.psr with et := false, ps := s.psr.s, s := true, cwp := cwpBelow s.cfg s.psr.cwp } }
  have hu : RegsWritten s u (cwpBelow s.cfg s.psr.cwp) [] := (RegsWritten.refl s _).congr rfl rfl rfl
  have h1 := hu.snoc rfl 17#5 (savedPcs s).1 (by simp)
  have h2 := h1.snoc (setRegIn_cfg ..) 18#5 (savedPcs s).2 (by simp)
  rw [hpcs] at h2
  refine h2.congr ?_ ?_ ?_ <;> rw [← hpcs] <;> rfl

theorem RegsWritten.congr_left {r s t : State} {w : BitVec 5} {xs : List (RegNum × Word)} (h : RegsWritten s t w xs)
    (hc : r.cfg = s.cfg) (hg : r.globals = s.globals) (hw : r.windowed = s.windowed) : RegsWritten r t w xs := by
  obtain ⟨hv, hglob, hwin⟩ := h
  refine ⟨hv, fun n hn hx => ?_, fun k hk => ?_⟩
  · rw [regIn_congr hc hg hw]
    exact hglob n hn hx
  · rw [hw]
    exact hwin k fun x hx => hc ▸ hk x hx

/-- Trap entry is the new window with tt and the program counters of the vector. -/
theorem enterTrap_eq (s : State) (x : Trap) :
    let v := enterWindow (recordTrap s x)
    let vector := BitVec.ofNat 32 (v.tbr.tba.toNat * 4096 + (trapType x).toNat * 16)
    enterTrap x s = { v with tbr := { v.tbr with tt := trapType x }, pc := vector, npc := vector + 4#32 } := by
  unfold enterTrap
  simp only [tbrWord_eq]

/-- All that trap entry changes. -/
theorem enterTrap_rest (s : State) (x : Trap) :
    let vector := BitVec.ofNat 32 (s.tbr.tba.toNat * 4096 + (trapType x).toNat * 16)
    enterTrap x s = { s with
      psr := { s.psr with et := false, ps := s.psr.s, s := true, cwp := cwpBelow s.cfg s.psr.cwp }
      globals := (enterTrap x s).globals, windowed := (enterTrap x s).windowed
      tbr := { s.tbr with tt := trapType x }
      pc := vector, npc := vector + 4#32, annul := false
      cpPending := s.cpPending && decide (x ≠ .cpException)
      fsr := (recordTrap s x).fsr, fpuMode := (recordTrap s x).fpuMode
      fpuQueue := (recordTrap s x).fpuQueue, fq := (recordTrap s x).fq } := by
  have hv := enterWindow_rest (recordTrap s x)
  have hu := recordTrap_rest s x
  rw [enterTrap_eq]
  generalize enterWindow (recordTrap s x) = v at hv ⊢
  generalize recordTrap s x = u at hu hv ⊢
  rw [hv, hu]

theorem enterTrap_regsWritten (s : State) (x : Trap) :
    RegsWritten s (enterTrap x s) (cwpBelow s.cfg s.psr.cwp)
      [(17#5, if s.annul then s.npc else s.pc), (18#5, if s.annul then s.npc + 4#32 else s.npc)] := by
  have h := enterWindow_regsWritten (recordTrap s x)
  have hu := recordTrap_rest s x
  rw [hu] at h
  rw [enterTrap_eq, hu]
  exact (h.congr rfl rfl rfl).congr_left rfl rfl rfl

/-- What an fp_exception records (60_exceptions.md R719, R755). -/
theorem recordFp_fpu (s : State) (r : FpRecord) :
    (recordFp s r).fsr = { s.fsr with ftt := r.ftt, cexc := r.cexc.getD s.fsr.cexc } ∧
      ((∀ q, s.fpuMode ≠ .pending q) →
        (recordFp s r).fpuMode = s.fpuMode ∧ (recordFp s r).fpuQueue = s.fpuQueue ∧ (recordFp s r).fq = s.fq) ∧
      ((∃ q, s.fpuMode = .pending q) →
        (recordFp s r).fpuMode = .exception ∧ (recordFp s r).fpuQueue = [] ∧
          (recordFp s r).fq = s.fq ++ s.fpuQueue.map FpWork.entry) := by
  unfold recordFp
  simp only []
  split
  · next q hq => exact ⟨rfl, fun h => absurd hq (h q), fun _ => ⟨rfl, rfl, rfl⟩⟩
  · next hq => exact ⟨rfl, fun _ => ⟨rfl, rfl, rfl⟩, fun ⟨q, h⟩ => absurd h (hq q)⟩

/-- Settles O29. -/
theorem trapEntry : Obligations.TrapEntry := by
  unfold Obligations.TrapEntry
  refine ⟨fun s x => ⟨takeTrap_commitPending x s, rfl, commitPending_of_nil, fun p rest h => commitPending_of_cons h⟩,
    fun s x hp => ?_⟩
  intro t cwp tt vector
  have htt : trapType x = tt := by
    cases x
    case trapInstruction n => exact numbered_value 1#1 n
    case interruptLevel n => exact numbered_value 1#4 n
    case implementationDependent n => exact numbered_value 3#3 n
    all_goals rfl
  have ht : t = if s.psr.et then enterTrap x { s with recentWrites := [] }
      else enterError { s with recentWrites := [] } := by
    show takeTrap x s = _
    unfold takeTrap
    rw [commitPending_of_nil hp]
  refine ⟨htt, fun het => ht.trans (if_neg (ne_true_of_eq_false het)), fun het => ?_⟩
  replace ht := ht.trans (if_pos het)
  have hrest := enterTrap_rest { s with recentWrites := [] } x
  rw [htt, ← ht] at hrest
  refine ⟨⟨?_, fun a => ?_, ?_⟩, fun hx => ?_, ?_⟩
  · rw [ht]
    exact (enterTrap_regsWritten { s with recentWrites := [] } x).congr_left rfl rfl rfl
  · rw [hrest]
  · rw [hrest]
    rfl
  · rw [hrest]
    cases x
    case fpException r => exact absurd rfl (hx r)
    all_goals exact ⟨rfl, rfl, rfl, rfl⟩
  · rintro r rfl
    rw [hrest]
    exact recordFp_fpu { s with recentWrites := [] } r

end Sys2Proof.Machine
end

section
/-! Privileged, illegal and disabled instructions (60_exceptions.md section 4): the checks that come before all
else an instruction does. -/

namespace Sys2Proof.Machine

/-! ### Privileged instructions -/

theorem asrPrivilege_privileged {s : State} {n : RegNum} (k : Res)
    (h : s.cfg.asrPrivileged.getLsbD n.toNat = true) : asrPrivilege s n k = privileged s k := if_pos h

theorem asrPrivilege_allowed {s : State} {n : RegNum} (k : Res)
    (h : s.cfg.asrPrivileged.getLsbD n.toNat = false ∨ s.psr.s = true) : asrPrivilege s n k = k := by
  unfold asrPrivilege
  rcases h with h | h
  · rw [h]
    rfl
  · rw [privileged_supervisor k h, ite_self]

/-- Settles O30. -/
theorem privilegedInUserMode : Obligations.PrivilegedInUserMode := by
  unfold Obligations.PrivilegedInUserMode
  intro s rd rs1 o alt hs
  have user {i : Instr} {k : Res} (hi : exec i s = (privileged s k).out) : Traps (exec i s) .privilegedInstruction s :=
    hi.trans (congrArg Res.out (privileged_user k hs))
  refine ⟨?_, fun n hn => ?_⟩
  · simp only [List.forall_mem_cons]
    exact ⟨user rfl, user rfl, user rfl, user rfl, user rfl, user rfl, user rfl, user rfl, user rfl, user rfl, user rfl,
      user rfl, user rfl, user rfl, user rfl, user rfl, user rfl, user rfl, user rfl, user rfl,
      fun _ h => (List.not_mem_nil h).elim⟩
  · simp only [List.forall_mem_cons]
    exact ⟨user (congrArg Res.out (asrPrivilege_privileged _ hn)), user (congrArg Res.out (asrPrivilege_privileged _ hn)),
      fun _ h => (List.not_mem_nil h).elim⟩

/-! ### Illegal instructions -/

theorem evenRd_odd {s : State} {rd : RegNum} (k : Res) (hc : s.cfg.oddRdLddTraps = true) (hr : rd.toNat % 2 = 1) :
    evenRd s rd k = .trap .illegalInstruction s := by
  have h0 : rd.getLsbD 0 = true := by simpa [BitVec.getLsbD, Nat.testBit_zero] using hr
  exact if_pos (by rw [hc, h0]; rfl)

theorem asrPresent_absent {s : State} {n : RegNum} (k : Res)
    (h : s.cfg.asrImplemented.getLsbD (n.toNat - 16) = false) :
    asrPresent s n k = .trap .illegalInstruction s := if_neg (by simp [h])

/-- Settles O31. -/
theorem illegalInstructions : Obligations.IllegalInstructions := by
  unfold Obligations.IllegalInstructions
  intro s rd rs1 rs2 o low asi c op2 op3 traps
  have illegal {i : Instr} {r : Res} (hi : exec i s = r.out) (hr : r = .trap .illegalInstruction s) :
      Traps (exec i s) .illegalInstruction s := hi.trans (congrArg Res.out hr)
  simp only [traps, List.forall_mem_cons, List.not_mem_nil, false_imp_iff, implies_true, and_true]
  refine ⟨⟨rfl, rfl, rfl, rfl⟩, fun hs => ?_, fun hs hw => ?_, fun hc hr => ⟨⟨?_, ?_⟩, fun hs => ⟨?_, ?_⟩⟩,
    fun h16 hi hp => ⟨?_, ?_⟩⟩
  · have imm {i : Instr} {k : BitVec 8 → Word → Res} (hi : exec i s = (alternate s rs1 (.imm low) k).out) :
        Traps (exec i s) .illegalInstruction s := illegal hi (alternate_imm s rs1 low k hs)
    exact ⟨imm rfl, imm rfl, imm rfl, imm rfl, imm rfl, imm rfl, imm rfl, imm rfl, imm rfl, imm rfl, imm rfl, imm rfl⟩
  · refine illegal rfl ((privileged_supervisor _ hs).trans (if_pos ?_))
    rw [toNat_low]
    exact hw
  · exact illegal rfl (evenRd_odd _ hc hr)
  · exact illegal rfl (evenRd_odd _ hc hr)
  · exact illegal rfl ((alternate_reg s rs1 rs2 asi _ hs).trans (evenRd_odd _ hc hr))
  · exact illegal rfl ((alternate_reg s rs1 rs2 asi _ hs).trans (evenRd_odd _ hc hr))
  · exact illegal rfl ((asrPrivilege_allowed _ hp).trans ((if_neg (Nat.not_lt.mpr h16)).trans (asrPresent_absent _ hi)))
  · exact illegal rfl ((asrPrivilege_allowed _ hp).trans ((if_neg (Nat.not_lt.mpr h16)).trans (asrPresent_absent _ hi)))

/-! ### Instructions of an absent or disabled unit -/

theorem fpEnabled_off {s : State} (k : Res) (h : efOn s = false) : fpEnabled s k = .trap .fpDisabled s :=
  if_neg (by simp [h])

theorem cpEnabled_off {s : State} (k : Res) (h : ecOn s = false) : cpEnabled s k = .trap .cpDisabled s :=
  if_neg (by simp [h])

theorem fpUnassigned_off {s : State} (fpop2 : Bool) (hr : s.cfg.reservedOpfIllegal = false) (h : efOn s = false) :
    fpUnassigned s fpop2 = .trap .fpDisabled s :=
  (if_neg (by simp [hr])).trans (fpEnabled_off _ h)

/-- The words of no instruction belong to no unit (30_encoding.md R236 to R238). -/
theorem unassigned_units :
    (∀ op2 : BitVec 3, (Instr.unassignedOp2 op2).wellFormed = true →
      usesFpu (.unassignedOp2 op2) = false ∧ usesCp (.unassignedOp2 op2) = false) ∧
    (∀ op3 : BitVec 6, (Instr.unassignedOp3Arith op3).wellFormed = true →
      usesFpu (.unassignedOp3Arith op3) = false ∧ usesCp (.unassignedOp3Arith op3) = false) ∧
    ∀ op3 : BitVec 6, (Instr.unassignedOp3Mem op3).wellFormed = true →
      usesFpu (.unassignedOp3Mem op3) = false ∧ usesCp (.unassignedOp3Mem op3) = false := by
  decide

theorem exec_fpDisabled {s : State} {i : Instr} (hw : i.wellFormed = true) (hef : efOn s = false)
    (hu : usesFpu i = true) (hq : ∀ rs1 o, i = .stdfq rs1 o → s.psr.s = true)
    (hr : ∀ rd rs1 opf rs2, i = .fpop1Unassigned rd rs1 opf rs2 ∨ i = .fpop2Unassigned rd rs1 opf rs2 →
      s.cfg.reservedOpfIllegal = false) : Traps (exec i s) .fpDisabled s := by
  cases i
  case fbn | fbne | fblg | fbul | fbl | fbug | fbg | fbu | fba | fbe | fbue | fbge | fbuge | fble | fbule | fbo =>
    exact congrArg Res.out (fpEnabled_off _ hef)
  case ldf | lddf | ldfsr | stf | stdf | stfsr => exact congrArg Res.out (fpEnabled_off _ hef)
  case fitos | fitod | fitoq | fstoi | fdtoi | fqtoi | fstod | fstoq | fdtos | fdtoq | fqtos | fqtod | fmovs | fnegs
      | fabss | fsqrts | fsqrtd | fsqrtq | fadds | faddd | faddq | fsubs | fsubd | fsubq | fmuls | fmuld | fmulq
      | fsmuld | fdmulq | fdivs | fdivd | fdivq | fcmps | fcmpd | fcmpq | fcmpes | fcmped | fcmpeq =>
    exact congrArg Res.out (fpEnabled_off _ hef)
  case stdfq rs1 o =>
    exact congrArg Res.out ((privileged_supervisor _ (hq rs1 o rfl)).trans (fpEnabled_off _ hef))
  case fpop1Unassigned rd rs1 opf rs2 =>
    exact congrArg Res.out (fpUnassigned_off false (hr rd rs1 opf rs2 (.inl rfl)) hef)
  case fpop2Unassigned rd rs1 opf rs2 =>
    exact congrArg Res.out (fpUnassigned_off true (hr rd rs1 opf rs2 (.inr rfl)) hef)
  case unassignedOp2 op2 => simp [(unassigned_units.1 op2 hw).1] at hu
  case unassignedOp3Arith op3 => simp [(unassigned_units.2.1 op3 hw).1] at hu
  case unassignedOp3Mem op3 => simp [(unassigned_units.2.2 op3 hw).1] at hu
  all_goals exact absurd hu Bool.false_ne_true

theorem exec_cpDisabled {s : State} {i : Instr} (hw : i.wellFormed = true) (hec : ecOn s = false)
    (hu : usesCp i = true) (hq : ∀ rs1 o, i = .stdcq rs1 o → s.psr.s = true) : Traps (exec i s) .cpDisabled s := by
  cases i
  case cbn | cb123 | cb12 | cb13 | cb1 | cb23 | cb2 | cb3 | cba | cb0 | cb03 | cb02 | cb023 | cb01 | cb013 | cb012 =>
    exact congrArg Res.out (cpEnabled_off _ hec)
  case ldc | lddc | ldcsr | stc | stdc | stcsr | cpop1 | cpop2 => exact congrArg Res.out (cpEnabled_off _ hec)
  case stdcq rs1 o =>
    exact congrArg Res.out ((privileged_supervisor _ (hq rs1 o rfl)).trans (cpEnabled_off _ hec))
  case unassignedOp2 op2 => simp [(unassigned_units.1 op2 hw).2] at hu
  case unassignedOp3Arith op3 => simp [(unassigned_units.2.1 op3 hw).2] at hu
  case unassignedOp3Mem op3 => simp [(unassigned_units.2.2 op3 hw).2] at hu
  all_goals exact absurd hu Bool.false_ne_true

/-- Settles O47. -/
theorem disabledUnitsTrap : Obligations.DisabledUnitsTrap := by
  unfold Obligations.DisabledUnitsTrap
  exact fun s i hw => ⟨exec_fpDisabled hw, exec_cpDisabled hw⟩

end Sys2Proof.Machine
end

section
/-! The state registers (43_state_regs_misc.md): their images, the writes put off, STBAR and FLUSH. -/

namespace Sys2Proof.Machine

/-! ### The images of the registers -/

theorem psrWord_eq (s : State) :
    let p := s.psr
    let bit (b : Bool) (k : Nat) : Nat := if b then 2 ^ k else 0
    psrWord s = BitVec.ofNat 32
      (s.cfg.psrImpl.toNat * 2 ^ 28 + s.cfg.psrVer.toNat * 2 ^ 24 + bit p.icc.n 23 + bit p.icc.z 22
        + bit p.icc.v 21 + bit p.icc.c 20 + bit (p.ec && s.cfg.cpPresent) 13
        + bit (p.ef && s.cfg.fpuPresent) 12 + p.pil.toNat * 2 ^ 8 + bit p.s 7 + bit p.ps 6
        + bit p.et 5 + p.cwp.toNat) := by
  intro p bit
  have hbit (b : Bool) (k : Nat) : bit b k = b.toNat * 2 ^ k := by cases b <;> simp [bit]
  have hlt := (psrWord s).isLt
  have hval : (psrWord s).toNat = s.cfg.psrImpl.toNat * 2 ^ 28 + s.cfg.psrVer.toNat * 2 ^ 24 + bit p.icc.n 23
      + bit p.icc.z 22 + bit p.icc.v 21 + bit p.icc.c 20 + bit (p.ec && s.cfg.cpPresent) 13
      + bit (p.ef && s.cfg.fpuPresent) 12 + p.pil.toNat * 2 ^ 8 + bit p.s 7 + bit p.ps 6
      + bit p.et 5 + p.cwp.toNat := by
    simp only [p, psrWord, append_toNat, BitVec.toNat_ofBool, hbit, ecOn, efOn, BitVec.toNat_ofNat]
    omega
  apply BitVec.eq_of_toNat_eq
  rw [BitVec.toNat_ofNat, ← hval, Nat.mod_eq_of_lt hlt]

/-- A mask of the low bits is a remainder. -/
theorem and_low_mask (v : Word) {n : Nat} (hn : n ≤ 32) :
    v &&& BitVec.ofNat 32 (2 ^ n - 1) = BitVec.ofNat 32 (v.toNat % 2 ^ n) := by
  have h32 : 2 ^ n ≤ 2 ^ 32 := Nat.pow_le_pow_right (by decide) hn
  have hp : 0 < 2 ^ n := Nat.two_pow_pos n
  apply BitVec.eq_of_toNat_eq
  have hr : v.toNat % 2 ^ n < 2 ^ 32 := Nat.lt_of_lt_of_le (Nat.mod_lt _ hp) h32
  rw [BitVec.toNat_and, BitVec.toNat_ofNat, BitVec.toNat_ofNat, Nat.mod_eq_of_lt (by omega : 2 ^ n - 1 < 2 ^ 32),
    Nat.and_two_pow_sub_one_eq_mod, Nat.mod_eq_of_lt hr]

theorem and_wimMask (c : Config) (v : Word) : v &&& wimMask c = BitVec.ofNat 32 (v.toNat % 2 ^ c.nwindows) :=
  and_low_mask v (nwindows_le c)

theorem asrIndex_of_toNat {n : RegNum} {k : Fin 16} (h : n.toNat = 16 + k.val) : asrIndex n = k := by
  apply Fin.ext
  simp only [asrIndex, Fin.ofNat, h]
  omega

theorem asrPresent_implemented {s : State} {n : RegNum} {k : Fin 16} (r : Res) (h : n.toNat = 16 + k.val)
    (hi : s.cfg.asrImplemented.getLsbD k.val = true) : asrPresent s n r = r :=
  if_pos (by rw [h, Nat.add_sub_cancel_left]; exact hi)

/-! ### Reads -/

/-- Settles O32. -/
theorem readStateRegisters : Obligations.ReadStateRegisters := by
  unfold Obligations.ReadStateRegisters
  intro s rd n p bit
  have reads {i : Instr} {r : Res} (v : Word) (hi : exec i s = r.out) (hr : r = .done (readStateReg s rd v)) :
      WritesReg (exec i s) s rd v p.icc := by
    rw [hi, hr]
    exact writeResult_writesReg s rd v
  refine ⟨writeResult_writesReg s rd s.y, fun hs => ⟨?_, ?_, ?_⟩, fun k hk hi hp => ?_, fun hn hp => ?_⟩
  · rw [← psrWord_eq s]
    exact reads _ rfl (privileged_supervisor _ hs)
  · rw [← and_wimMask]
    exact reads _ rfl (privileged_supervisor _ hs)
  · rw [← tbrWord_eq]
    exact reads _ rfl (privileged_supervisor _ hs)
  · have h16 : ¬n.toNat < 16 := by omega
    rw [← asrIndex_of_toNat hk]
    exact reads _ rfl ((asrPrivilege_allowed _ hp).trans ((if_neg h16).trans (asrPresent_implemented _ hk hi)))
  · have he : exec (.rdasr rd n) s = _ := congrArg Res.out ((asrPrivilege_allowed _ hp).trans (if_pos hn))
    obtain ⟨t, ht, hregs, hm, hf⟩ :=
      writeResult_writesReg { s with freeDraws := s.freeDraws + 1 } rd (Config.asrReservedRead n s.freeDraws)
    exact ⟨t, he.trans ht, ⟨_, hregs⟩, hm, hf⟩

/-! ### Writes -/

/-- A write of a state register that does not trap (log 5, log 6). -/
theorem advance_delayWrite (s : State) (r : StateReg) (v : Word) :
    let recent := s.recentWrites ++ [⟨r, changedFields s r v, 4⟩]
    (s.cfg.wrDelay.val ≠ 0 →
      advance (delayWrite s r v) = { s with
        pc := s.npc, npc := s.npc + 4#32, pending := s.pending ++ [⟨r, v, s.cfg.wrDelay.val + 1⟩]
        recentWrites := recent }) ∧
      (s.cfg.wrDelay.val = 0 →
        advance (delayWrite s r v) =
          { commit s ⟨r, v, 0⟩ with pc := s.npc, npc := s.npc + 4#32, recentWrites := recent }) := by
  refine ⟨fun h => ?_, fun h => ?_⟩
  · rw [delayWrite, if_neg h]
    rfl
  · rw [delayWrite, if_pos h]
    cases r <;> rfl

/-- Settles O33. -/
theorem writeStateRegisters : Obligations.WriteStateRegisters := by
  unfold Obligations.WriteStateRegisters
  intro s rd rs1 o v delay delays
  have writes {i : Instr} {q : Res} (r : StateReg) (hi : exec i s = q.out)
      (hq : q = .done (advance (delayWrite s r v))) : delays i r := by
    obtain ⟨hlater, hnow⟩ := advance_delayWrite s r v
    refine ⟨fun h => ?_, fun h => ?_⟩
    · rw [hi, hq, hlater h]
      rfl
    · rw [hi, hq, hnow h]
      rfl
  refine ⟨writes .y (q := .done _) rfl rfl, fun hs => ⟨writes .wim rfl (privileged_supervisor _ hs),
    writes .tbr rfl (privileged_supervisor _ hs), fun hw => ?_⟩, fun hp => ⟨fun k hk hi => ?_, fun h => ?_⟩⟩
  · refine writes .psr rfl ((privileged_supervisor _ hs).trans (if_neg ?_))
    rw [toNat_low]
    exact Nat.not_le.mpr hw
  · have h16 : ¬rd.toNat < 16 := by omega
    rw [← asrIndex_of_toNat hk]
    exact writes _ rfl ((asrPrivilege_allowed _ hp).trans ((if_neg h16).trans (asrPresent_implemented _ hk hi)))
  · have he : exec (.wrasr rd rs1 o) s = _ := congrArg Res.out ((asrPrivilege_allowed _ hp).trans (if_pos h))
    rw [he]
    exact advance_writesRegs s

/-! ### STBAR and FLUSH -/

theorem physicalOf_untranslated {s : State} (va : Word) (h : translating s = false) :
    physicalOf s va = some va.toNat := if_neg (by simp [h])

theorem checkedAccess_pa {s t : State} {x : PdcEntry} {asi : BitVec 8} {va : Word} {store : Bool} {p : BitVec 36}
    {k : Nat} (h : checkedAccess s x asi va store = .ok p k t) : p = pagePa x.entry x.level va := by
  unfold checkedAccess at h
  simp only [] at h
  split at h
  · simp only [Translation.ok.injEq] at h
    exact h.1.symm
  · cases h

/-- Where an address translates to is where an access to it goes, if no fault stops it. -/
theorem physicalOf_translated {s t : State} {asi : BitVec 8} {store : Bool} {p : BitVec 36} {k : Nat} (va : Word)
    (ht : translating s = true) (h : translateCached s .second asi va store = .ok p k t) :
    physicalOf s va = some p.toNat := by
  unfold translateCached at h
  unfold physicalOf
  rw [if_pos ht]
  cases hc : pdcPte s va with
  | some x =>
    simp only [hc] at h ⊢
    rw [checkedAccess_pa h]
  | none =>
    simp only [hc] at h ⊢
    cases hw : walk s .second va with
    | pte e level pa ptds =>
      simp only [hw] at h ⊢
      rw [checkedAccess_pa h]
    | fault ft level bus =>
      simp only [hw] at h
      cases h

/-- A fetch delivers memory's word, or with a stale buffer one of the copies that are left, freely. -/
theorem fetchedWord_cases (s : State) (pa : Nat) (w : Word) :
    (s.cfg.ibufStale = false → fetchedWord s pa w = (w, s)) ∧
      (s.cfg.ibufStale = true →
        ∃ v, fetchedWord s pa w = (v, { s with freeDraws := s.freeDraws + 1 }) ∧
          (v = w ∨ ∃ x ∈ s.staleWords, x.pa = pa ∧ v = x.old)) := by
  refine ⟨fun h => if_neg (by simp [h]), fun h => ⟨_, if_pos h, ?_⟩⟩
  generalize hv : w :: (s.staleWords.filter (fun x => x.pa == pa)).map StaleWord.old = values
  have hlen : 0 < values.length := by simp [← hv]
  have hmem : values.getD (Config.staleDraw s.freeDraws % values.length) w ∈ values := by
    rw [List.getD_eq_getElem _ _ (Nat.mod_lt _ hlen)]
    exact List.getElem_mem _
  rw [← hv] at hmem
  rcases List.mem_cons.mp hmem with h | h
  · exact .inl (by rw [← hv]; exact h)
  · obtain ⟨x, hx, hold⟩ := List.mem_map.mp h
    obtain ⟨hx, hpa⟩ := List.mem_filter.mp hx
    exact .inr ⟨x, hx, by simpa using hpa, by rw [← hv]; exact hold.symm⟩

theorem mem_tickStale {y : StaleWord} {xs : List StaleWord} :
    y ∈ tickStale xs ↔ ∃ x ∈ xs, y = { x with flushIn := x.flushIn.map (· - 1) } ∧ y.flushIn ≠ some 0 := by
  simp only [tickStale, List.mem_filter, List.mem_map, bne_iff_ne]
  constructor
  · rintro ⟨⟨x, hx, rfl⟩, h⟩
    exact ⟨x, hx, rfl, h⟩
  · rintro ⟨x, hx, rfl, h⟩
    exact ⟨⟨x, hx, rfl⟩, h⟩

/-- A copy that is left after some turns is one that was there and whose delay is longer. -/
theorem mem_iterate_tickStale {y : StaleWord} (n : Nat) {xs : List StaleWord} (h : y ∈ Nat.iterate tickStale n xs) :
    ∃ x ∈ xs, y.va = x.va ∧ y.pa = x.pa ∧ ∀ k, x.flushIn = some k → 0 < n → n < k := by
  induction n generalizing xs with
  | zero => exact ⟨y, h, rfl, rfl, fun _ _ h0 => absurd h0 (Nat.lt_irrefl 0)⟩
  | succ n ih =>
    obtain ⟨z, hz, hva, hpa, hk⟩ := ih h
    obtain ⟨x, hx, rfl, h0⟩ := mem_tickStale.mp hz
    refine ⟨x, hx, hva, hpa, fun k hxk _ => ?_⟩
    simp only [hxk, Option.map_some, ne_eq, Option.some.injEq] at h0 hk
    rcases Nat.eq_zero_or_pos n with rfl | hn
    · omega
    · have := hk _ rfl hn
      omega

/-- A copy that no FLUSH has marked stays. -/
theorem unmarked_mem_iterate_tickStale {x : StaleWord} (hx : x.flushIn = none) (n : Nat) {xs : List StaleWord}
    (h : x ∈ xs) : x ∈ Nat.iterate tickStale n xs := by
  induction n generalizing xs with
  | zero => exact h
  | succ n ih =>
    refine ih (mem_tickStale.mpr ⟨x, h, ?_, by simp [hx]⟩)
    rw [hx, Option.map_none, ← hx]

/-- What FLUSH makes of a copy. -/
def flushMark (s : State) (address : Word) (x : StaleWord) : StaleWord :=
  if inDoubleword s address x && x.flushIn.isNone then { x with flushIn := some 6 } else x

theorem flushDoubleword_staleWords (s : State) (address : Word) :
    (flushDoubleword s address).staleWords = s.staleWords.map (flushMark s address) := rfl

theorem inDoubleword_iff (s : State) (address : Word) (x : StaleWord) :
    inDoubleword s address x = true ↔
      x.va.toNat / 8 = address.toNat / 8 ∨ ∃ pa, physicalOf s address = some pa ∧ x.pa / 8 = pa / 8 := by
  simp only [inDoubleword, Bool.or_eq_true, beq_iff_eq, Option.any_eq_true, eq_comm (a := x.pa / 8)]

theorem flushMark_marked {s : State} {address : Word} {x : StaleWord} (h : inDoubleword s address x = true)
    (hn : x.flushIn = none) : flushMark s address x = { x with flushIn := some 6 } := if_pos (by simp [h, hn])

theorem flushMark_unmarked {s : State} {address : Word} {x : StaleWord}
    (h : ¬(inDoubleword s address x = true ∧ x.flushIn = none)) : flushMark s address x = x :=
  if_neg (by simpa using h)

/-- No copy of the doubleword outlives the delay. -/
theorem flushed_gone {s : State} {address : Word} (hk : ∀ x ∈ s.staleWords, ∀ k, x.flushIn = some k → k ≤ 6)
    {y : StaleWord} (hy : y ∈ Nat.iterate tickStale 6 (s.staleWords.map (flushMark s address))) :
    ¬inDoubleword s address y = true := by
  intro hin
  obtain ⟨z, hz, hva, hpa, hlt⟩ := mem_iterate_tickStale 6 hy
  obtain ⟨x, hx, rfl⟩ := List.mem_map.mp hz
  rw [inDoubleword_iff, hva, hpa, ← inDoubleword_iff] at hin
  by_cases hm : inDoubleword s address x = true ∧ x.flushIn = none
  · rw [flushMark_marked hm.1 hm.2] at hlt
    exact absurd (hlt 6 rfl (by decide)) (by decide)
  · rw [flushMark_unmarked hm] at hlt hin
    cases hf : x.flushIn with
    | none => exact hm ⟨hin, hf⟩
    | some k =>
      have := hlt k hf (by decide)
      have := hk x hx k hf
      omega

/-- Settles O35. -/
theorem barrierAndFlush : Obligations.BarrierAndFlush := by
  unfold Obligations.BarrierAndFlush
  intro s rs1 o address flushed
  have hfl (x : StaleWord) : inDoubleword s (effectiveAddress s rs1 o) x = true ↔ flushed x := inDoubleword_iff ..
  refine ⟨fun va => ⟨physicalOf_untranslated va, fun ht asi store p k t h => physicalOf_translated va ht h⟩,
    fetchedWord_cases s, rfl, fun hf => ?_, fun hf => ?_, fun hf => ?_⟩
  · have he : exec (.flush rs1 o) s = .next (advance (flushDoubleword s (effectiveAddress s rs1 o))) := by
      show execFlush rs1 o s = _
      unfold execFlush
      rw [hf]
      rfl
    refine ⟨_, he, fun _ => rfl, rfl, ?_, fun k x y hx hy => ?_, fun hk y hy => ?_, fun x hx hn hu => ?_⟩
    · rw [advance_staleWords, flushDoubleword_staleWords, List.length_map]
    · rw [advance_staleWords, flushDoubleword_staleWords, List.getElem?_map, hx, Option.map_some,
        Option.some.injEq] at hy
      subst hy
      refine ⟨fun hm => flushMark_marked ((hfl x).mpr hm.1) hm.2, fun hm => flushMark_unmarked ?_⟩
      rw [hfl]
      exact hm
    · rw [← hfl]
      exact flushed_gone hk hy
    · rw [← hfl] at hn
      refine unmarked_mem_iterate_tickStale hu 6 (List.mem_map.mpr ⟨x, hx, flushMark_unmarked ?_⟩)
      exact fun h => hn h.1
  · show execFlush rs1 o s = _
    unfold execFlush
    rw [hf]
    rfl
  · show execFlush rs1 o s = _
    unfold execFlush
    rw [hf]
    rfl

end Sys2Proof.Machine
end

section
/-! Accesses by the place where they take place: what a load of one datum or of a doubleword delivers and writes,
and what a store of one word or of two leaves (40_load_store.md; the places are `Place` of Safety.lean). -/

namespace Sys2Proof.Machine

/-! ### Loads -/

theorem LoadAt.aligned {s t : State} {p : Place} {asi : BitVec 8} {a : Word} {z : Size} (h : LoadAt s p asi a z t) :
    a.toNat % z.alignment = 0 := by
  rcases h with ⟨h, -⟩ | h
  · exact h.2.1
  · exact h.2.1

theorem LoadAt.frame {s t : State} {p : Place} {asi : BitVec 8} {a : Word} {z : Size} (h : LoadAt s p asi a z t) :
    AccessFrame s t := by
  obtain ⟨r, hr, -⟩ := route_loadAt h
  have hf := route_framed s .first asi a false
  rw [hr] at hf
  exact hf

/-- A read at a place draws a value or performs an access, and leaves all else. -/
theorem Delivers.rest {p : Place} {t u : State} {asi : BitVec 8} {z : Size} {second : Bool} {v : Word}
    (h : Delivers p t asi z second v u) : u = { t with freeDraws := u.freeDraws, ioTrace := u.ioTrace } := by
  cases p with
  | memory pa => obtain ⟨-, rfl⟩ := h; rfl
  | readOnly pa => obtain ⟨-, rfl⟩ := h; rfl
  | io pa => obtain ⟨-, -, rfl⟩ := h; rfl
  | suppressed pa => obtain ⟨-, rfl⟩ := h; rfl

/-- What a read delivers does not depend on the registers. -/
theorem Delivers.withRegs {p : Place} {t u : State} {asi : BitVec 8} {z : Size} {second : Bool} {v : Word}
    {g : Vector Word 7} {w : Vector Word 512} {f : Vector Word 32}
    (h : Delivers p { t with globals := g, windowed := w, fregs := f } asi z second v u) :
    ∃ r, Delivers p t asi z second v r ∧ u = { r with globals := g, windowed := w, fregs := f } := by
  cases p with
  | memory pa => obtain ⟨hv, rfl⟩ := h; exact ⟨t, ⟨hv, rfl⟩, rfl⟩
  | readOnly pa => obtain ⟨hv, rfl⟩ := h; exact ⟨t, ⟨hv, rfl⟩, rfl⟩
  | io pa => obtain ⟨hv, hd, rfl⟩ := h; exact ⟨_, ⟨hv, hd, rfl⟩, rfl⟩
  | suppressed pa => obtain ⟨hv, rfl⟩ := h; exact ⟨_, ⟨hv, rfl⟩, rfl⟩

theorem loadInt_at {s t : State} {p : Place} {asi : BitVec 8} {a : Word} {z : Size} (h : LoadAt s p asi a z t)
    (extend : Word → Word) (rd : RegNum) :
    ∃ v u, Delivers p t asi z false v u ∧ loadInt s asi a z extend rd = .done (writeResult u rd (extend v)) := by
  obtain ⟨v, u, hr, hd⟩ := memRead_loadAt h
  refine ⟨v, u, hd, ?_⟩
  rw [loadInt, aligned_of_mod _ h.aligned, hr]
  rfl

/-- A load writes what its place delivers (40_load_store.md R310 to R314). -/
theorem load_writesReg {s t : State} {p : Place} {asi : BitVec 8} {a : Word} {z : Size} {i : Instr}
    {extend : Word → Word} {rd : RegNum} (h : LoadAt s p asi a z t)
    (hi : exec i s = (loadInt s asi a z extend rd).out) :
    ∃ v u, Delivers p t asi z false v u ∧ WritesReg (exec i s) u rd (extend v) s.psr.icc := by
  obtain ⟨v, u, hd, he⟩ := loadInt_at h extend rd
  have hpsr : u.psr = s.psr := by rw [hd.rest, h.frame.rest]
  refine ⟨v, u, hd, ?_⟩
  rw [hi, he, ← hpsr]
  exact writeResult_writesReg u rd (extend v)

theorem evenReg_eq (n : RegNum) : evenReg n = BitVec.ofNat 5 (n.toNat / 2 * 2) := by
  revert n
  decide

theorem oddReg_eq (n : RegNum) : oddReg n = BitVec.ofNat 5 (n.toNat / 2 * 2 + 1) := by
  revert n
  decide

theorem evenReg_ne_oddReg (n : RegNum) : evenReg n ≠ oddReg n := by
  revert n
  decide

/-- A register is written whatever draws and I/O accesses are made besides. -/
theorem setReg_withDraws (s : State) (n : RegNum) (v : Word) (d : Nat) (io : List IoAccess) :
    setReg { s with freeDraws := d, ioTrace := io } n v = { setReg s n v with freeDraws := d, ioTrace := io } := by
  unfold setReg setRegIn
  split
  · rfl
  · split <;> rfl

/-- Two registers written, one after the other, and on to the next instruction. -/
theorem twoRegs_writesRegs (u : State) {n m : RegNum} (hne : n ≠ m) (v w : Word) :
    WritesRegs (.next (advance (setReg (setReg u n v) m w))) u [(n, v), (m, w)] u.psr.icc u.y := by
  refine ⟨_, rfl, ?_, fun a => ?_, ?_⟩
  · have h1 := (RegsWritten.refl u u.psr.cwp).snoc rfl n v (by simp)
    have h2 := h1.snoc (setRegIn_cfg ..) m w (by simpa using hne)
    have hcwp : (setReg u n v).psr.cwp = u.psr.cwp := by rw [setReg_psr]
    refine h2.congr ?_ ?_ ?_ <;> rw [advance] <;> simp only [setReg, setRegIn_psr]
  · rw [advance_mem, setReg_mem, setReg_mem]
  · unfold setReg
    rw [setRegIn_frame (setRegIn u u.psr.cwp n v), setRegIn_frame u]
    rfl

/-- A doubleword load writes the two words its place delivers (40_load_store.md R330). -/
theorem loadPair_writesRegs {s t : State} {p : Place} {asi : BitVec 8} {a : Word} {i : Instr} {rd : RegNum}
    (h : LoadAt s p asi a .dword t) (hi : exec i s = (loadPair s asi a rd).out) :
    ∃ v0 v1 u, DeliversPair p t asi v0 v1 u ∧
      WritesRegs (exec i s) u [(evenReg rd, v0), (oddReg rd, v1)] s.psr.icc s.y := by
  obtain ⟨r, hr, hp⟩ := route_loadAt h
  have hf := h.frame.rest
  have hm : t.now.machineCheck = none := by rw [hf]; exact h.quiet
  have hc : t.cfg = s.cfg := by rw [hf]
  obtain ⟨v0, w, hw, hd0⟩ := readAt_delivers (k := .first) (z := .dword) hm (by decide) (by rw [hc]) hp
  have hwrest := hd0.rest
  have hset : setReg w (evenReg rd) v0 = { w with
      globals := (setReg w (evenReg rd) v0).globals, windowed := (setReg w (evenReg rd) v0).windowed
      fregs := w.fregs } := setRegIn_frame w _ _ v0
  have hp2 := hp.next (u := setReg w (evenReg rd) v0) (by rw [setReg_mmu, hwrest]) (by rw [setReg_cfg, hwrest]) h.aligned
  obtain ⟨v1, x, hx, hd1⟩ := readAt_delivers (k := .second) (z := .dword) (by rw [setReg_now, hwrest]; exact hm)
    (by decide) (by rw [setReg_cfg, hwrest, hc]) hp2
  rw [hset] at hd1
  obtain ⟨u, hd1, hxu⟩ := hd1.withRegs
  have hurest := hd1.rest
  have hx' : x = setReg u (evenReg rd) v0 := by
    rw [hurest, setReg_withDraws, hxu, hset, hurest]
  refine ⟨v0, v1, u, ⟨w, hd0, hd1⟩, ?_⟩
  have he : loadPair s asi a rd = .done (advance (setReg x (oddReg rd) v1)) := by
    rw [loadPair, aligned_of_mod _ h.aligned, hr]
    show (readAt t .first r a .dword).bind _ = _
    rw [hw]
    show (readAt (setReg w (evenReg rd) v0) .second r.next (a + 4#32) .dword).bind _ = _
    rw [hx]
    rfl
  have hpsr : u.psr = s.psr := by rw [hurest, hwrest, hf]
  have hy : u.y = s.y := by rw [hurest, hwrest, hf]
  rw [hi, he, hx', ← hpsr, ← hy]
  exact twoRegs_writesRegs u (evenReg_ne_oddReg rd) v0 v1

end Sys2Proof.Machine
end

section
/-! Stores by the place where they take place: the bytes, the copies of the instruction buffer and the I/O accesses
that one word or two leave, and the instruction that ends behind them (20_memory.md sections 1, 4 and 5). -/

namespace Sys2Proof.Machine

/-! ### The state in which a store takes place -/

theorem storeAt_rest (s : State) (va : Word) (pa : Nat) (v : Word) (z : Size) :
    storeAt s va pa v z = { s with
      mem := s.mem.write pa v z, staleWords := (storeAt s va pa v z).staleWords } := by
  unfold storeAt keepStale
  split <;> rfl

theorem StoreAt.aligned {s t : State} {p : Place} {asi : BitVec 8} {a : Word} {z : Size} (h : StoreAt s p asi a z t) :
    a.toNat % z.alignment = 0 := by
  rcases h with ⟨h, -⟩ | h
  · exact h.2.1
  · exact h.2.1

theorem StoreAt.quiet {s t : State} {p : Place} {asi : BitVec 8} {a : Word} {z : Size} (h : StoreAt s p asi a z t) :
    s.now.machineCheck = none := by
  rcases h with ⟨h, -⟩ | h
  · exact h.1
  · exact h.1

theorem WriteHalfAt.quiet {s t : State} {p : Place} {asi : BitVec 8} {a : Word} {z : Size}
    (h : WriteHalfAt s p asi a z t) : s.now.machineCheck = none := by
  rcases h with ⟨h, -⟩ | h
  · exact h.1
  · exact h.1

/-- No translation touches the pending STBAR, which the store has carried out before it (20_memory.md R135). -/
theorem recordFault_barrier (s : State) (k : FaultClass) (l : BitVec 2) (a f : BitVec 3) (b : Bool) (va : Word) :
    (recordFault s k l a f b va).storeBarrierPending = s.storeBarrierPending := by
  unfold recordFault
  split <;> rfl

theorem markAccessed_barrier (s : State) (x : PdcEntry) (store : Bool) :
    (markAccessed s x store).storeBarrierPending = s.storeBarrierPending := by
  unfold markAccessed
  simp only []
  split <;> rfl

theorem checkedAccess_barrier (s : State) (x : PdcEntry) (asi : BitVec 8) (va : Word) (store : Bool) :
    (checkedAccess s x asi va store).state.storeBarrierPending = s.storeBarrierPending := by
  unfold checkedAccess
  simp only []
  split
  · exact markAccessed_barrier ..
  · exact recordFault_barrier ..

theorem translateCached_barrier (s : State) (k : AccessKind) (asi : BitVec 8) (va : Word) (store : Bool) :
    (translateCached s k asi va store).state.storeBarrierPending = s.storeBarrierPending := by
  unfold translateCached
  split
  · exact checkedAccess_barrier ..
  · split
    · exact checkedAccess_barrier ..
    · exact recordFault_barrier ..

/-- The state a translation leaves, whatever it comes to. -/
theorem TranslatedAt.state_eq {s t : State} {p : Place} {asi : BitVec 8} {a : Word} {z : Size} {o : Translation}
    (h : TranslatedAt s p asi a z o t) : o.state = t := by
  obtain ⟨-, -, -, -, ⟨q, k, rfl, -⟩ | ⟨-, -, ft, q, rfl, -⟩⟩ := h <;> rfl

theorem StoreAt.barrier {s t : State} {p : Place} {asi : BitVec 8} {a : Word} {z : Size} (h : StoreAt s p asi a z t) :
    t.storeBarrierPending = false := by
  rcases h with ⟨-, rfl⟩ | h
  · rfl
  · rw [← h.state_eq]
    exact translateCached_barrier ..

theorem WriteHalfAt.barrier {s t : State} {p : Place} {asi : BitVec 8} {a : Word} {z : Size}
    (h : WriteHalfAt s p asi a z t) : t.storeBarrierPending = false := by
  rcases h with ⟨-, rfl⟩ | h
  · rfl
  · rw [← h.state_eq]
    exact translateCached_barrier ..

theorem StoreAt.frame {s t : State} {p : Place} {asi : BitVec 8} {a : Word} {z : Size} (h : StoreAt s p asi a z t) :
    AccessFrame s t := by
  obtain ⟨r, hr, -⟩ := writeRoute_storeAt h
  have hf := writeRoute_framed s .first asi a
  rw [hr] at hf
  exact hf

theorem WriteHalfAt.frame {s t : State} {p : Place} {asi : BitVec 8} {a : Word} {z : Size}
    (h : WriteHalfAt s p asi a z t) : AccessFrame s t := by
  obtain ⟨r, hr, -⟩ := writeRoute_writeHalfAt h
  have hf := writeRoute_framed s .second asi a
  rw [hr] at hf
  exact hf

/-! ### The bytes of a store -/

theorem bytesStored_length (v : Word) (z : Size) : (bytesStored v z).length = z.bytes := by cases z <;> rfl

/-- What is read back behind a store, byte by byte. -/
theorem read8_write (m : Memory) (a : Nat) (v : Word) (z : Size) (k : Nat) (h : k < (bytesStored v z).length) :
    (m.write a v z).read8 (a + k) = (bytesStored v z)[k] := by
  have word : ∀ k (h : k < (bytesOfWord v).length), (m.write32 a v).read8 (a + k) = (bytesOfWord v)[k] := by
    intro k h
    obtain ⟨h0, h1, h2, h3⟩ := Memory.read8_write32 m a v
    match k, h with
    | 0, _ => exact h0
    | 1, _ => exact h1
    | 2, _ => exact h2
    | 3, _ => exact h3
  cases z with
  | byte =>
    match k, h with
    | 0, _ => exact Memory.read8_write8_same ..
  | half =>
    obtain ⟨h0, h1⟩ := Memory.read8_write_half m a v
    match k, h with
    | 0, _ => exact h0
    | 1, _ => exact h1
  | word => exact word k h
  | dword => exact word k h

theorem write_storesBytes {s t : State} {pa : Nat} {v : Word} {z : Size} (h : t.mem = s.mem.write pa v z) :
    StoresBytes s t pa (bytesStored v z) := by
  refine ⟨fun k hk => ?_, fun a ha => ?_⟩
  · rw [h]
    exact read8_write ..
  · rw [bytesStored_length] at ha
    rw [h]
    exact Memory.read8_write_outside _ _ _ _ _ ha

theorem write_two_storesBytes {s t : State} {pa : Nat} {v w : Word}
    (h : t.mem = (s.mem.write pa v .dword).write (pa + 4) w .dword) :
    StoresBytes s t pa (bytesStored v .dword ++ bytesStored w .dword) := by
  have h4 (u : Word) : (bytesStored u .dword).length = 4 := rfl
  refine ⟨fun k hk => ?_, fun a ha => ?_⟩
  · rw [h]
    by_cases hlow : k < 4
    · rw [Memory.read8_write_outside _ _ _ _ _ (.inl (by omega)), List.getElem_append_left hlow]
      exact read8_write ..
    · rw [List.length_append, h4, h4] at hk
      rw [List.getElem_append_right (Nat.le_of_not_lt hlow)]
      have := read8_write (s.mem.write pa v .dword) (pa + 4) w .dword (k - 4) (by rw [h4]; omega)
      rw [show pa + 4 + (k - 4) = pa + k by omega] at this
      exact this
  · rw [List.length_append, h4, h4] at ha
    rw [h, Memory.read8_write_outside _ _ _ _ _ (by simp only [Size.bytes]; omega),
      Memory.read8_write_outside _ _ _ _ _ (by simp only [Size.bytes]; omega)]

/-! ### The copies of replaced words -/

theorem CopiesKept.congr {s t u : State} {va : Word} {pa n m : Nat} {c d : Nat → Bool} (h : CopiesKept s t va pa n c)
    (hm : u.mem = t.mem) (hs : u.staleWords = t.staleWords)
    (hc : (List.range n).filter c = (List.range m).filter d) : CopiesKept s u va pa m d := by
  unfold CopiesKept at h ⊢
  rw [hm, hs, ← hc]
  exact h

/-- A store that is not performed leaves no copy. -/
theorem copiesKept_none {s t : State} (va : Word) (pa n : Nat) {c : Nat → Bool} (hs : t.staleWords = s.staleWords)
    (hc : (List.range n).filter c = []) : CopiesKept s t va pa n c := by
  unfold CopiesKept
  rw [hc, hs]
  split <;> simp

/-- The second word of two stored alone leaves its copy alone. -/
theorem copiesKept_second (s : State) (va : Word) (pa : Nat) (v : Word) {c : Nat → Bool}
    (hc : (List.range 2).filter c = [1]) :
    CopiesKept s (storeAt s (va + 4#32) (pa + 4) v .dword) va pa 2 c := by
  have h := copiesKept_storeAt s (va + 4#32) (pa + 4) v .dword
  unfold CopiesKept at h ⊢
  rw [hc]
  simpa [List.range_succ] using h

/-! ### What the stores of an instruction leave -/

/-- Stores have been performed, and nothing else. -/
def Stored (s x : State) : Prop :=
  x = { s with mem := x.mem, staleWords := x.staleWords, freeDraws := x.freeDraws, ioTrace := x.ioTrace }

/-- What an instruction does behind its stores: it writes the listed r registers and goes on, `s` having become
`u` besides, and leaves to what the stores have done. -/
structure Finishes (f : State → State) (s u : State) (xs : List (RegNum × Word)) : Prop where
  mem : u.mem = s.mem
  staleWords : u.staleWords = s.staleWords
  freeDraws : u.freeDraws = s.freeDraws
  ioTrace : u.ioTrace = s.ioTrace
  barrier : s.storeBarrierPending = false
  regs : ∀ x, Stored s x → RegsWritten s (f x) s.psr.cwp xs
  rest : ∀ x, Stored s x → f x = { u with
    pc := s.npc, npc := s.npc + 4#32, globals := (f x).globals, windowed := (f x).windowed
    mem := x.mem, staleWords := x.staleWords, freeDraws := x.freeDraws, ioTrace := x.ioTrace
    storeBarrierPending := false }

theorem Stored.refl (s : State) : Stored s s := rfl

theorem Stored.storeAt {s x : State} (h : Stored s x) (va : Word) (pa : Nat) (v : Word) (z : Size) :
    Stored s (storeAt x va pa v z) := by
  unfold Stored at h ⊢
  rw [storeAt_rest, h]

theorem Stored.draw {s x : State} (h : Stored s x) : Stored s { x with freeDraws := x.freeDraws + 1 } := by
  unfold Stored at h ⊢
  rw [h]

theorem Stored.io {s x : State} (h : Stored s x) (w : Bool) (asi : BitVec 8) (a : Nat) (z : Size) (v : Word) :
    Stored s (ioPerformed x w asi a z v) := by
  unfold Stored at h ⊢
  rw [ioPerformed, h]

/-- A word stored in real memory, or not. -/
def storeIf (c : Bool) (s : State) (va : Word) (pa : Nat) (v : Word) (z : Size) : State :=
  if c then storeAt s va pa v z else s

theorem Stored.storeIf {s x : State} (h : Stored s x) (c : Bool) (va : Word) (pa : Nat) (v : Word) (z : Size) :
    Stored s (storeIf c x va pa v z) := by
  cases c
  · exact h
  · exact h.storeAt va pa v z

/-- Is a store under a suppressed fault performed (21_reference_mmu.md R182; log 18). -/
def suppressedPerforms (s : State) (asi : BitVec 8) (va : Word) (pa : Option Nat) : Bool :=
  pa.any fun pa => Config.noFaultStore s.freeDraws && locationKind s asi va pa == .realMemory

theorem storeAt_draw (s : State) (va : Word) (pa : Nat) (v : Word) (z : Size) :
    storeAt { s with freeDraws := s.freeDraws + 1 } va pa v z =
      { storeAt s va pa v z with freeDraws := s.freeDraws + 1 } := by
  unfold storeAt keepStale
  split <;> rfl

theorem suppressedWrite_eq (s : State) (asi : BitVec 8) (va : Word) (pa : Option Nat) (v : Word) (z : Size) :
    suppressedWrite s asi va pa v z = .ok ()
      { storeIf (suppressedPerforms s asi va pa) s va (pa.getD 0) v z with freeDraws := s.freeDraws + 1 } := by
  unfold suppressedWrite suppressedPerforms storeIf
  cases pa with
  | none => rfl
  | some pa =>
    simp only [Option.any_some, Option.getD_some]
    split
    · rw [storeAt_draw]
    · rfl

/-- A store under a suppressed fault goes to real memory alone, at an address the translation knows. -/
theorem suppressedPerforms_where {s : State} {asi : BitVec 8} {va : Word} {pa : Option Nat}
    (h : suppressedPerforms s asi va pa = true) : pa ≠ none ∧ regionKind s.cfg asi (pa.getD 0) = .realMemory := by
  cases pa with
  | none => cases h
  | some pa =>
    refine ⟨by simp, ?_⟩
    simp only [suppressedPerforms, Option.any_some, Bool.and_eq_true, beq_iff_eq] at h
    have hl := h.2
    unfold locationKind at hl
    show regionKind s.cfg asi pa = _
    cases hk : regionKind s.cfg asi pa <;> rw [hk] at hl <;> simp only [] at hl
    · split at hl <;> cases hl
    · split at hl <;> cases hl
    · cases hl

end Sys2Proof.Machine
end

section
/-! What an instruction that stores comes to by its place (`PutsAnd` of Safety.lean), for one word and for two. -/

namespace Sys2Proof.Machine

/-! ### The end of the instruction -/

section
variable {f : State → State} {s u x : State} {xs : List (RegNum × Word)}

theorem Finishes.mem_eq (hf : Finishes f s u xs) (hx : Stored s x) : (f x).mem = x.mem := by rw [hf.rest x hx]

theorem Finishes.staleWords_eq (hf : Finishes f s u xs) (hx : Stored s x) : (f x).staleWords = x.staleWords := by
  rw [hf.rest x hx]

/-- Behind a store in real memory. -/
theorem Finishes.rest_memory (hf : Finishes f s u xs) (hx : Stored s x) (hd : x.freeDraws = s.freeDraws)
    (hi : x.ioTrace = s.ioTrace) :
    f x = { u with
      pc := s.npc, npc := s.npc + 4#32, globals := (f x).globals, windowed := (f x).windowed
      mem := (f x).mem, storeBarrierPending := false, staleWords := (f x).staleWords } := by
  have h := hf.rest x hx
  rw [hd, hi, ← hf.freeDraws, ← hf.ioTrace] at h
  rw [hf.mem_eq hx, hf.staleWords_eq hx]
  exact h

/-- Behind stores that leave memory alone. -/
theorem Finishes.rest_kept (hf : Finishes f s u xs) (hx : Stored s x) (hm : x.mem = s.mem)
    (hs : x.staleWords = s.staleWords) (hd : x.freeDraws = s.freeDraws) :
    f x = { u with
      pc := s.npc, npc := s.npc + 4#32, globals := (f x).globals, windowed := (f x).windowed
      storeBarrierPending := false, ioTrace := x.ioTrace } := by
  have h := hf.rest x hx
  rw [hm, hs, hd, ← hf.mem, ← hf.staleWords, ← hf.freeDraws] at h
  exact h

/-- Behind stores under a suppressed fault. -/
theorem Finishes.rest_suppressed (hf : Finishes f s u xs) (hx : Stored s x) (hi : x.ioTrace = s.ioTrace) :
    f x = { u with
      pc := s.npc, npc := s.npc + 4#32, globals := (f x).globals, windowed := (f x).windowed
      storeBarrierPending := false, mem := (f x).mem, staleWords := (f x).staleWords
      freeDraws := x.freeDraws } := by
  have h := hf.rest x hx
  rw [hi, ← hf.ioTrace] at h
  rw [hf.mem_eq hx, hf.staleWords_eq hx]
  exact h

end

/-! ### Memory under stores that may be performed or not -/

theorem read8_storeIf_outside (c : Bool) (s : State) (va : Word) (pa : Nat) (v : Word) (z : Size) {a : Nat}
    (h : c = true → a < pa ∨ pa + z.bytes ≤ a) : (storeIf c s va pa v z).mem.read8 a = s.mem.read8 a := by
  cases c
  · rfl
  · exact Memory.read8_write_outside _ _ _ _ _ (h rfl)

theorem read8_storeIf (s : State) (va : Word) (pa : Nat) (v : Word) (z : Size) {c : Bool} (hc : c = true) (j : Nat)
    (h : j < (bytesStored v z).length) : (storeIf c s va pa v z).mem.read8 (pa + j) = (bytesStored v z)[j] := by
  subst hc
  exact read8_write s.mem pa v z j h

/-- Which of the two words of a doubleword are stored. -/
def storedOf (c d : Bool) : Nat → Bool
  | 0 => c
  | 1 => d
  | _ => false

theorem copiesKept_storeIf (c : Bool) (s : State) (va : Word) (pa : Nat) (v : Word) (z : Size) :
    CopiesKept s (storeIf c s va pa v z) va pa 1 (storedOf c false) := by
  cases c
  · exact copiesKept_none va pa 1 rfl rfl
  · exact (copiesKept_storeAt s va pa v z).congr rfl rfl rfl

theorem copiesKept_storeIf_two (c d : Bool) (s : State) (va : Word) (pa : Nat) (v w : Word) :
    CopiesKept s (storeIf d (storeIf c s va pa v .dword) (va + 4#32) (pa + 4) w .dword) va pa 2 (storedOf c d) := by
  cases c <;> cases d
  · exact copiesKept_none va pa 2 rfl rfl
  · exact copiesKept_second s va pa w rfl
  · exact (copiesKept_storeAt s va pa v .dword).congr rfl rfl rfl
  · exact (copiesKept_two s va pa v w).congr rfl rfl rfl

theorem storeIf_ioTrace (c : Bool) (s : State) (va : Word) (pa : Nat) (v : Word) (z : Size) :
    (storeIf c s va pa v z).ioTrace = s.ioTrace := by
  cases c
  · rfl
  · show (storeAt s va pa v z).ioTrace = _
    rw [storeAt_rest]

theorem Stored.withDraws {s x : State} (h : Stored s x) (d : Nat) : Stored s { x with freeDraws := d } := by
  unfold Stored at h ⊢
  rw [h]

theorem Stored.cfg {s x : State} (h : Stored s x) : x.cfg = s.cfg := by
  rw [h]

/-! ### One word -/

/-- A store of one word, then the end of the instruction. -/
theorem puts_one {f : State → State} {s u : State} {xs : List (RegNum × Word)} (hf : Finishes f s u xs) (p : Place)
    {k : AccessKind} (hk : k ≠ .fetch) (asi : BitVec 8) (va v : Word) (z : Size) :
    PutsAnd p ((placeWrite p s k (decodedAsi s.cfg asi) va v z).bind fun _ x => .done (f x)).out s u asi va z [v]
      xs := by
  cases p with
  | memory pa =>
    have hx : Stored s (storeAt s va pa v z) := (Stored.refl s).storeAt va pa v z
    have hmem : (storeAt s va pa v z).mem = s.mem.write pa v z := by rw [storeAt_rest]
    have hbytes : ([v].flatMap fun v => bytesStored v z) = bytesStored v z := List.flatMap_singleton ..
    have hn : ((bytesStored v z).length + 3) / 4 = 1 := by
      rw [bytesStored_length]
      cases z <;> rfl
    show StoresAnd (.next (f (storeAt s va pa v z))) s u va pa _ xs
    rw [hbytes]
    refine ⟨_, rfl, write_storesBytes ((hf.mem_eq hx).trans hmem), hf.regs _ hx, ?_, ?_⟩
    · rw [hn]
      exact (copiesKept_storeAt s va pa v z).congr (hf.mem_eq hx) (hf.staleWords_eq hx) rfl
    · exact hf.rest_memory hx (by rw [storeAt_rest]) (by rw [storeAt_rest])
  | readOnly pa =>
    have hex : accessException k = .dataAccessException := by cases k <;> first | rfl | exact absurd rfl hk
    refine ⟨fun h => ?_, fun h => ⟨f s, ?_, hf.regs s (.refl s), ?_⟩⟩
    · rw [placeWrite, if_pos h, hex]
      rfl
    · rw [placeWrite, if_neg (by simp [h])]
      rfl
    · have hr := hf.rest_kept (.refl s) rfl rfl rfl
      rw [← hf.ioTrace] at hr
      exact hr
  | io pa =>
    have hx : Stored s (ioPerformed s true (decodedAsi s.cfg asi) pa z (cutTo v z)) := (Stored.refl s).io ..
    refine ⟨f (ioPerformed s true (decodedAsi s.cfg asi) pa z (cutTo v z)), rfl, hf.regs _ hx, ?_⟩
    exact hf.rest_kept hx rfl rfl rfl
  | suppressed pa =>
    have hx : Stored s _ := ((Stored.refl s).storeIf (suppressedPerforms s (decodedAsi s.cfg asi) va pa) va
      (pa.getD 0) v z).withDraws (s.freeDraws + 1)
    rw [placeWrite, suppressedWrite_eq]
    refine ⟨_, rfl, hf.regs _ hx, storedOf (suppressedPerforms s (decodedAsi s.cfg asi) va pa) false,
      fun n hn => ?_, fun a ha => ?_, fun n hn hs j hj => ?_, ?_, hf.rest_suppressed hx (storeIf_ioTrace ..)⟩
    · match n, hn with
      | 0, hn => exact suppressedPerforms_where hn
      | 1, hn => cases hn
      | _ + 2, hn => cases hn
    · rw [hf.mem_eq hx]
      exact read8_storeIf_outside _ s va _ v z fun hc => ha 0 (by simp) hc
    · obtain rfl : n = 0 := by simpa using hn
      rw [hf.mem_eq hx]
      exact read8_storeIf s va _ v z hs j hj
    · exact (copiesKept_storeIf _ s va _ v z).congr (hf.mem_eq hx) (hf.staleWords_eq hx) rfl

/-! ### Two words -/

/-- The stores of a doubleword at a place, then the end of the instruction. -/
def placeWriteTwo (p : Place) (s : State) (asi : BitVec 8) (va v w : Word) (f : State → State) : Res :=
  (placeWrite p s .first asi va v .dword).bind fun _ x =>
    (placeWrite p.next x .second asi (va + 4#32) w .dword).bind fun _ x => .done (f x)

theorem storeIf_withDraws (c : Bool) (s : State) (va : Word) (pa : Nat) (v : Word) (z : Size) (n : Nat) :
    storeIf c { s with freeDraws := n } va pa v z = { storeIf c s va pa v z with freeDraws := n } := by
  cases c
  · rfl
  · show storeAt _ va pa v z = { storeAt s va pa v z with freeDraws := n }
    unfold storeAt keepStale
    split <;> rfl

/-- The two stores under a suppressed fault, each performed or not. -/
theorem placeWriteTwo_suppressed (s : State) (asi : BitVec 8) (va v w : Word) (f : State → State)
    (pa : Option Nat) :
    ∃ d : Bool, (d = true → pa ≠ none ∧ regionKind s.cfg asi (pa.getD 0 + 4) = .realMemory) ∧
      placeWriteTwo (.suppressed pa) s asi va v w f = .done (f
        { storeIf d (storeIf (suppressedPerforms s asi va pa) s va (pa.getD 0) v .dword) (va + 4#32)
            (pa.getD 0 + 4) w .dword with freeDraws := s.freeDraws + 2 }) := by
  generalize hc : suppressedPerforms s asi va pa = c
  let y : State := { storeIf c s va (pa.getD 0) v .dword with freeDraws := s.freeDraws + 1 }
  have hy : y.cfg = s.cfg := ((Stored.refl s).storeIf c va (pa.getD 0) v .dword).cfg
  have hfirst : placeWriteTwo (.suppressed pa) s asi va v w f =
      (suppressedWrite y asi (va + 4#32) (pa.map (· + 4)) w .dword).bind fun _ x => .done (f x) := by
    show (suppressedWrite s asi va pa v .dword).bind _ = _
    rw [suppressedWrite_eq, hc]
    rfl
  refine ⟨suppressedPerforms y asi (va + 4#32) (pa.map (· + 4)), fun h => ?_, ?_⟩
  · have hw := suppressedPerforms_where h
    rw [hy] at hw
    cases pa with
    | none => exact absurd rfl hw.1
    | some pa => exact ⟨by simp, hw.2⟩
  · rw [hfirst, suppressedWrite_eq]
    cases pa with
    | none => rfl
    | some pa =>
      show Res.done (f { storeIf _ { storeIf c s va pa v .dword with freeDraws := s.freeDraws + 1 } _ (pa + 4) w
        .dword with freeDraws := s.freeDraws + 1 + 1 }) = _
      rw [storeIf_withDraws]
      rfl

theorem puts_two {f : State → State} {s u : State} {xs : List (RegNum × Word)} (hf : Finishes f s u xs) (p : Place)
    (asi : BitVec 8) (va v w : Word) :
    PutsAnd p (placeWriteTwo p s (decodedAsi s.cfg asi) va v w f).out s u asi va .dword [v, w] xs := by
  cases p with
  | memory pa =>
    have hx : Stored s (storeAt (storeAt s va pa v .dword) (va + 4#32) (pa + 4) w .dword) :=
      ((Stored.refl s).storeAt va pa v .dword).storeAt ..
    have hmem : (storeAt (storeAt s va pa v .dword) (va + 4#32) (pa + 4) w .dword).mem =
        (s.mem.write pa v .dword).write (pa + 4) w .dword := by rw [storeAt_rest, storeAt_rest s]
    have hbytes : ([v, w].flatMap fun v => bytesStored v .dword) = bytesStored v .dword ++ bytesStored w .dword := by
      simp
    have hn : ((bytesStored v .dword ++ bytesStored w .dword).length + 3) / 4 = 2 := by
      rw [List.length_append, bytesStored_length, bytesStored_length]
      rfl
    show StoresAnd (.next (f (storeAt (storeAt s va pa v .dword) (va + 4#32) (pa + 4) w .dword))) s u va pa _ xs
    rw [hbytes]
    refine ⟨_, rfl, write_two_storesBytes ((hf.mem_eq hx).trans hmem), hf.regs _ hx, ?_, ?_⟩
    · rw [hn]
      exact (copiesKept_two s va pa v w).congr (hf.mem_eq hx) (hf.staleWords_eq hx) rfl
    · exact hf.rest_memory hx (by rw [storeAt_rest, storeAt_rest s]) (by rw [storeAt_rest, storeAt_rest s])
  | readOnly pa =>
    refine ⟨fun h => ?_, fun h => ⟨f s, ?_, hf.regs s (.refl s), ?_⟩⟩
    · rw [placeWriteTwo, placeWrite, if_pos h]
      rfl
    · have hn : ¬s.cfg.romStoreTraps = true := by simp [h]
      rw [placeWriteTwo, placeWrite, if_neg hn]
      show (Res.out ((placeWrite (.readOnly (pa + 4)) s .second _ _ w .dword).bind _)) = _
      rw [placeWrite, if_neg hn]
      rfl
    · have hr := hf.rest_kept (.refl s) rfl rfl rfl
      rw [← hf.ioTrace] at hr
      exact hr
  | io pa =>
    have hx := ((Stored.refl s).io true (decodedAsi s.cfg asi) pa .dword (cutTo v .dword)).io true
      (decodedAsi s.cfg asi) (pa + 4) .dword (cutTo w .dword)
    refine ⟨_, rfl, hf.regs _ hx, ?_⟩
    have hr := hf.rest_kept hx rfl rfl rfl
    have hio (a b : IoAccess) : s.ioTrace ++ [a] ++ [b] = s.ioTrace ++ [a, b] := by simp
    exact hr.trans (by simp only [ioPerformed, hio]; rfl)
  | suppressed pa =>
    obtain ⟨d, hd, he⟩ := placeWriteTwo_suppressed s (decodedAsi s.cfg asi) va v w f pa
    have hx : Stored s _ := (((Stored.refl s).storeIf (suppressedPerforms s (decodedAsi s.cfg asi) va pa) va
      (pa.getD 0) v .dword).storeIf d (va + 4#32) (pa.getD 0 + 4) w .dword).withDraws (s.freeDraws + 2)
    rw [he]
    refine ⟨_, rfl, hf.regs _ hx, storedOf (suppressedPerforms s (decodedAsi s.cfg asi) va pa) d,
      fun n hn => ?_, fun a ha => ?_, fun n hn hs j hj => ?_, ?_,
      hf.rest_suppressed hx ((storeIf_ioTrace ..).trans (storeIf_ioTrace ..))⟩
    · match n, hn with
      | 0, hn => exact suppressedPerforms_where hn
      | 1, hn => exact hd hn
      | _ + 2, hn => cases hn
    · rw [hf.mem_eq hx]
      exact (read8_storeIf_outside d _ _ _ w .dword fun hc => ha 1 (by simp) hc).trans
        (read8_storeIf_outside _ s va _ v .dword fun hc => ha 0 (by simp) hc)
    · rw [hf.mem_eq hx]
      match n, hn, hs, hj with
      | 0, _, hs, hj =>
        have h4 : j < 4 := hj
        exact (read8_storeIf_outside d _ _ _ w .dword fun _ => .inl (by omega)).trans
          (read8_storeIf s va _ v .dword hs j hj)
      | 1, _, hs, hj => exact read8_storeIf _ _ _ w .dword hs j hj
    · exact (copiesKept_storeIf_two _ d s va _ v w).congr (hf.mem_eq hx) (hf.staleWords_eq hx) rfl

end Sys2Proof.Machine
end

section
/-! Integer loads, stores and atomic load-stores (40_load_store.md) by the place of their accesses. -/

namespace Sys2Proof.Machine

/-! ### Stores -/

theorem advance_finishes {s : State} (hb : s.storeBarrierPending = false) : Finishes advance s s [] where
  mem := rfl
  staleWords := rfl
  freeDraws := rfl
  ioTrace := rfl
  barrier := hb
  regs x hx := by
    rw [hx]
    exact (RegsWritten.refl s _).congr rfl rfl rfl
  rest x hx := by
    rw [hx, ← hb]
    rfl

/-- A register written behind the stores, as an atomic load-store does. -/
theorem advance_setReg_finishes {s : State} (hb : s.storeBarrierPending = false) (rd : RegNum) (v : Word) :
    Finishes (fun x => advance (setReg x rd v)) s s [(rd, v)] where
  mem := rfl
  staleWords := rfl
  freeDraws := rfl
  ioTrace := rfl
  barrier := hb
  regs x hx := by
    have hcwp : x.psr.cwp = s.psr.cwp := by rw [hx]
    have h0 : RegsWritten s x s.psr.cwp [] := by
      rw [hx]
      exact (RegsWritten.refl s _).congr rfl rfl rfl
    have h1 := h0.snoc hx.cfg rd v (by simp)
    rw [← hcwp] at h1 ⊢
    exact h1.congr rfl rfl rfl
  rest x hx := by
    have hset : setReg x rd v = { x with globals := (setReg x rd v).globals, windowed := (setReg x rd v).windowed } :=
      setRegIn_frame ..
    show advance (setReg x rd v) = _
    rw [hset]
    generalize (setReg x rd v).globals = g
    generalize (setReg x rd v).windowed = w
    rw [hx, ← hb]
    rfl

theorem placeWrite_stored {p : Place} {s x : State} {k : AccessKind} {asi : BitVec 8} {va v : Word} {z : Size}
    (h : placeWrite p s k asi va v z = .ok () x) : Stored s x := by
  cases p with
  | memory pa =>
    cases h
    exact (Stored.refl s).storeAt ..
  | readOnly pa =>
    unfold placeWrite at h
    simp only [] at h
    split at h
    · cases h
    · cases h
      exact .refl s
  | io pa =>
    cases h
    exact (Stored.refl s).io ..
  | suppressed pa =>
    rw [placeWrite, suppressedWrite_eq] at h
    cases h
    exact ((Stored.refl s).storeIf ..).withDraws _

/-- A write at a place, once it is routed. -/
theorem memWrite_storeAt {s t : State} {p : Place} {asi : BitVec 8} {a : Word} {z : Size}
    (h : StoreAt s p asi a z t) (v : Word) :
    memWrite s .first asi a v z = placeWrite p t .first (decodedAsi t.cfg asi) a v z := by
  obtain ⟨r, hr, hp⟩ := writeRoute_storeAt h
  have hf := h.frame.rest
  have hm : t.now.machineCheck = none := by rw [hf]; exact h.quiet
  have hc : t.cfg = s.cfg := by rw [hf]
  rw [memWrite, hr, hc]
  exact writeAt_place hm hp .first v z

theorem memWrite_writeHalfAt {s t : State} {p : Place} {asi : BitVec 8} {a : Word} {z : Size}
    (h : WriteHalfAt s p asi a z t) (v : Word) :
    memWrite s .second asi a v z = placeWrite p t .second (decodedAsi t.cfg asi) a v z := by
  obtain ⟨r, hr, hp⟩ := writeRoute_writeHalfAt h
  have hf := h.frame.rest
  have hm : t.now.machineCheck = none := by rw [hf]; exact h.quiet
  have hc : t.cfg = s.cfg := by rw [hf]
  rw [memWrite, hr, hc]
  exact writeAt_place hm hp .second v z

/-- The two writes of a doubleword at a place, then the end of the instruction (20_memory.md R113). -/
theorem storeTwo_storeAt {s t : State} {p : Place} {asi : BitVec 8} {a : Word} (h : StoreAt s p asi a .dword t)
    (v w : Word) (f : State → State) :
    storeTwo s asi a v w (fun x => .done (f x)) = placeWriteTwo p t (decodedAsi t.cfg asi) a v w f := by
  obtain ⟨r, hr, hp⟩ := writeRoute_storeAt h
  have hf := h.frame.rest
  have hm : t.now.machineCheck = none := by rw [hf]; exact h.quiet
  have hc : t.cfg = s.cfg := by rw [hf]
  rw [storeTwo, hr, hc]
  show (writeAt t .first r a v .dword).bind _ = _
  rw [writeAt_place hm hp .first v .dword, placeWriteTwo]
  cases hw : placeWrite p t .first (decodedAsi s.cfg asi) a v .dword with
  | fault x y => rfl
  | ok y x =>
    have hx := placeWrite_stored hw
    have hp2 := hp.next (u := x) (by rw [hx]) hx.cfg h.aligned
    show (writeAt x .second r.next (a + 4#32) w .dword).bind _ = _
    rw [writeAt_place (by rw [hx]; exact hm) hp2 .second w .dword]
    rfl

theorem store_puts {s t : State} {p : Place} {asi : BitVec 8} {a v : Word} {z : Size} {i : Instr}
    (h : StoreAt s p asi a z t) (hi : exec i s = (storeInt s asi a z v).out) : Puts p (exec i s) t asi a z [v] [] := by
  rw [hi, storeInt, aligned_of_mod _ h.aligned, memWrite_storeAt h]
  exact puts_one (advance_finishes h.barrier) p (by decide) asi a v z

theorem storePair_puts {s t : State} {p : Place} {asi : BitVec 8} {a : Word} {rd : RegNum} {i : Instr}
    (h : StoreAt s p asi a .dword t) (hi : exec i s = (storePair s asi a rd).out) :
    Puts p (exec i s) t asi a .dword [reg s (evenReg rd), reg s (oddReg rd)] [] := by
  rw [hi, storePair, aligned_of_mod _ h.aligned, storeTwo_storeAt h]
  exact puts_two (advance_finishes h.barrier) p asi a _ _

theorem evenRd_even {s : State} {rd : RegNum} (k : Res) (h : s.cfg.oddRdLddTraps = false ∨ rd.toNat % 2 = 0) :
    evenRd s rd k = k := by
  have hbit : rd.getLsbD 0 = decide (rd.toNat % 2 = 1) := by simp [BitVec.getLsbD, Nat.testBit_zero]
  refine if_neg ?_
  rw [hbit]
  rcases h with h | h <;> simp [h]

/-! ### Atomic load-stores -/

/-- A byte written is the low byte of the word. -/
theorem placeWrite_byte (p : Place) (s : State) (k : AccessKind) (asi : BitVec 8) (va : Word) {v w : Word}
    (h : v.extractLsb' 0 8 = w.extractLsb' 0 8) : placeWrite p s k asi va v .byte = placeWrite p s k asi va w .byte := by
  have hs (t : State) (pa : Nat) : storeAt t va pa v .byte = storeAt t va pa w .byte := by
    unfold storeAt
    show ({ keepStale t va pa with mem := t.mem.write8 pa (v.extractLsb' 0 8) } : State) = _
    rw [h]
    rfl
  cases p with
  | memory pa => rw [placeWrite, hs]; rfl
  | readOnly pa => rfl
  | io pa =>
    have hc : cutTo v .byte = cutTo w .byte := by
      rw [← narrow_eq_cutTo, ← narrow_eq_cutTo]
      exact congrArg (BitVec.setWidth 32) h
    rw [placeWrite, hc]
    rfl
  | suppressed pa =>
    cases pa with
    | none => rfl
    | some pa =>
      simp only [placeWrite, suppressedWrite, hs]

/-- An atomic load-store reads at one place and writes at one, memory not being blocked; `w` is what its write
hands over, cut to the size. -/
theorem atomic_puts {s t : State} {p : Place} {asi : BitVec 8} {a v w : Word} {z : Size} {rd : RegNum} {i : Instr}
    (hb : s.blockByte = false) (hw : s.blockWord = false)
    (hv : ∀ q r b, placeWrite q r .second b a v z = placeWrite q r .second b a w z) (h : LoadAt s p asi a z t)
    (hi : exec i s = (atomic s asi a z v rd).out) :
    ∃ old u, Delivers p t asi z false old u ∧
      ∀ q r, WriteHalfAt u q asi a z r → Puts q (exec i s) r asi a z [w] [(rd, old)] := by
  obtain ⟨old, u, hr, hd⟩ := memRead_loadAt h
  refine ⟨old, u, hd, fun q r hq => ?_⟩
  have hbf : ¬(s.blockByte || s.blockWord) = true := by simp [hb, hw]
  rw [hi, atomic, aligned_of_mod _ h.aligned, if_neg hbf, hr]
  show PutsAnd q ((memWrite u .second asi a v z).bind _).out _ _ _ _ _ _ _
  rw [memWrite_writeHalfAt hq, hv]
  exact puts_one (advance_setReg_finishes hq.barrier rd old) q (by decide) asi a w z

/-! ### The statements on real memory -/

theorem low_eq_setWidth (v : Word) (n : Nat) : v.extractLsb' 0 n = v.setWidth n := by
  apply BitVec.eq_of_toNat_eq
  rw [toNat_low, BitVec.toNat_setWidth]

theorem signByte_eq (v : Word) : signByte v = (v.setWidth 8).signExtend 32 := by rw [signByte, low_eq_setWidth]

theorem signHalf_eq (v : Word) : signHalf v = (v.setWidth 16).signExtend 32 := by rw [signHalf, low_eq_setWidth]

theorem signByte_setWidth (b : Byte) : signByte (b.setWidth 32) = b.signExtend 32 := by
  rw [signByte_eq, BitVec.setWidth_setWidth_of_le _ (by decide), BitVec.setWidth_eq]

theorem signHalf_setWidth (b : BitVec 16) : signHalf (b.setWidth 32) = b.signExtend 32 := by
  rw [signHalf_eq, BitVec.setWidth_setWidth_of_le _ (by decide), BitVec.setWidth_eq]

/-- A load of real memory. -/
theorem readAccess_writesReg {s t : State} {pa : Nat} {asi : BitVec 8} {a : Word} {z : Size} {i : Instr}
    {extend : Word → Word} {rd : RegNum} (h : ReadAccess s asi a z pa t)
    (hi : exec i s = (loadInt s asi a z extend rd).out) :
    WritesReg (exec i s) t rd (extend (valueAt t pa z)) s.psr.icc := by
  obtain ⟨v, u, ⟨rfl, rfl⟩, hw⟩ := load_writesReg h hi
  exact hw

theorem readAccess_writesPair {s t : State} {pa : Nat} {asi : BitVec 8} {a : Word} {i : Instr} {rd : RegNum}
    (h : ReadAccess s asi a .dword pa t) (hi : exec i s = (loadPair s asi a rd).out) :
    WritesRegs (exec i s) t
      [(BitVec.ofNat 5 (rd.toNat / 2 * 2), wordAt t pa), (BitVec.ofNat 5 (rd.toNat / 2 * 2 + 1), wordAt t (pa + 4))]
      s.psr.icc s.y := by
  obtain ⟨v0, v1, u, ⟨r, ⟨rfl, rfl⟩, rfl, rfl⟩, hw⟩ := loadPair_writesRegs h hi
  rw [← evenReg_eq, ← oddReg_eq]
  exact hw

/-- An instruction that checks the mode first, an alternate-space one among them, in supervisor mode. -/
theorem exec_supervisor {s : State} {i : Instr} {r : Res} (hs : s.psr.s = true)
    (hi : exec i s = (privileged s r).out) : exec i s = r.out := by
  rw [hi, privileged_supervisor r hs]

/-- Settles O37. -/
theorem loadResults : Obligations.LoadResults := by
  unfold Obligations.LoadResults
  intro s t rd rs1 rs2 o asi pa data address alt altAddress loads loadsPair byte
  have signedByte {a : Word} {sp : BitVec 8} {i : Instr} (h : ReadAccess s sp a .byte pa t)
      (hi : exec i s = (loadInt s sp a .byte signByte rd).out) : loads i (byte.signExtend 32) := by
    have hw := readAccess_writesReg h hi
    rwa [show valueAt t pa .byte = byte.setWidth 32 from rfl, signByte_setWidth] at hw
  have signedHalf {a : Word} {sp : BitVec 8} {i : Instr} (h : ReadAccess s sp a .half pa t)
      (hi : exec i s = (loadInt s sp a .half signHalf rd).out) : loads i ((halfAt t pa).signExtend 32) := by
    have hw := readAccess_writesReg h hi
    rwa [show valueAt t pa .half = (halfAt t pa).setWidth 32 from rfl, signHalf_setWidth] at hw
  refine ⟨fun h => ⟨readAccess_writesReg (extend := id) h rfl, signedByte h rfl⟩,
    fun h => ⟨readAccess_writesReg (extend := id) h rfl, signedHalf h rfl⟩,
    fun h => readAccess_writesReg (extend := id) h rfl,
    fun h he => readAccess_writesPair h (congrArg Res.out (evenRd_even _ he)), fun hs => ⟨fun h => ⟨?_, ?_⟩,
      fun h => ⟨?_, ?_⟩, fun h => ?_, fun h he => ?_⟩⟩
  · exact readAccess_writesReg (extend := id) h (exec_supervisor hs rfl)
  · exact signedByte h (exec_supervisor hs rfl)
  · exact readAccess_writesReg (extend := id) h (exec_supervisor hs rfl)
  · exact signedHalf h (exec_supervisor hs rfl)
  · exact readAccess_writesReg (extend := id) h (exec_supervisor hs rfl)
  · exact readAccess_writesPair h ((exec_supervisor hs rfl).trans (congrArg Res.out (evenRd_even _ he)))

/-- Settles O38. -/
theorem storeResults : Obligations.StoreResults := by
  unfold Obligations.StoreResults
  intro s t rd rs1 rs2 o asi pa data address alt altAddress v pair stores storesAlt
  have hpair {a : Word} {sp : BitVec 8} {i : Instr} (h : WriteAccess s sp a .dword pa t)
      (hi : exec i s = (storePair s sp a rd).out) : Stores (exec i s) t a pa pair [] := by
    have hw := storePair_puts h hi
    rw [evenReg_eq, oddReg_eq] at hw
    exact hw
  refine ⟨fun h => store_puts h rfl, fun h => store_puts h rfl, fun h => store_puts h rfl,
    fun h he => hpair h (congrArg Res.out (evenRd_even _ he)), fun hs => ⟨fun h => ?_, fun h => ?_, fun h => ?_,
      fun h he => ?_⟩⟩
  · exact store_puts h (exec_supervisor hs rfl)
  · exact store_puts h (exec_supervisor hs rfl)
  · exact store_puts h (exec_supervisor hs rfl)
  · exact hpair h ((exec_supervisor hs rfl).trans (congrArg Res.out (evenRd_even _ he)))

/-- An atomic load-store waits while another holder blocks the memory (log 38). -/
theorem atomic_waits {s : State} {asi : BitVec 8} {a v : Word} {z : Size} {rd : RegNum}
    (hb : s.blockByte = true ∨ s.blockWord = true) (ha : a.toNat % z.alignment = 0) :
    (atomic s asi a z v rd).out = .next s := by
  rw [atomic, aligned_of_mod _ ha, if_pos (by simpa using hb)]
  rfl

/-- Settles O39. -/
theorem atomicResults : Obligations.AtomicResults := by
  unfold Obligations.AtomicResults
  intro s r t rd rs1 rs2 o asi pa qa data address alt altAddress byte word
  have bytes {a : Word} {sp : BitVec 8} {i : Instr} (hb : s.blockByte = false ∧ s.blockWord = false)
      (h : AtomicAccess s sp a .byte pa r qa t) (hi : exec i s = (atomic s sp a .byte 0xFFFFFFFF#32 rd).out) :
      byte i a := by
    obtain ⟨old, u, ⟨rfl, rfl⟩, hp⟩ := atomic_puts (w := 0xFF#32) hb.1 hb.2
      (fun q r b => placeWrite_byte q r .second b a rfl) h.1 hi
    exact hp (.memory qa) t h.2
  have words {a : Word} {sp : BitVec 8} {i : Instr} (hb : s.blockByte = false ∧ s.blockWord = false)
      (h : AtomicAccess s sp a .word pa r qa t) (hi : exec i s = (atomic s sp a .word (reg s rd) rd).out) :
      word i a := by
    obtain ⟨old, u, ⟨rfl, rfl⟩, hp⟩ := atomic_puts hb.1 hb.2 (fun _ _ _ => rfl) h.1 hi
    exact hp (.memory qa) t h.2
  refine ⟨fun hb => ⟨fun h => bytes hb h rfl, fun h => words hb h rfl,
    fun hs => ⟨fun h => bytes hb h (exec_supervisor hs rfl), fun h => words hb h (exec_supervisor hs rfl)⟩⟩,
    fun hb => ⟨?_, fun ha => ?_, fun hs => ⟨?_, fun ha => ?_⟩⟩⟩
  · exact atomic_waits hb (Nat.mod_one _)
  · exact atomic_waits (z := .word) hb ha
  · exact (exec_supervisor hs rfl).trans (atomic_waits hb (Nat.mod_one _))
  · exact (exec_supervisor hs rfl).trans (atomic_waits (z := .word) hb ha)

/-- Settles O40. -/
theorem misalignedAddressesTrap : Obligations.MisalignedAddressesTrap := by
  unfold Obligations.MisalignedAddressesTrap
  intro s rd rs1 rs2 o asi a b alt traps even
  have direct {i : Instr} {sz : Size} {k : Res} {w : Word} (hi : exec i s = (aligned s w sz k).out)
      (h : w.toNat % sz.alignment ≠ 0) : Traps (exec i s) .memAddressNotAligned s :=
    hi.trans (congrArg Res.out (aligned_of_mod_ne k h))
  have fp {i : Instr} {sz : Size} {k : Res} {w : Word} (hi : exec i s = (fpEnabled s (aligned s w sz k)).out)
      (hef : efOn s = true) (h : w.toNat % sz.alignment ≠ 0) : Traps (exec i s) .memAddressNotAligned s :=
    direct (hi.trans (congrArg Res.out (fpEnabled_on _ hef))) h
  have cp {i : Instr} {sz : Size} {k : Res} {w : Word} (hi : exec i s = (cpEnabled s (aligned s w sz k)).out)
      (hec : ecOn s = true) (h : w.toNat % sz.alignment ≠ 0) : Traps (exec i s) .memAddressNotAligned s :=
    direct (hi.trans (congrArg Res.out (cpEnabled_on _ hec))) h
  simp only [traps, List.forall_mem_cons, List.not_mem_nil, false_imp_iff, implies_true, and_true]
  refine ⟨fun h => ⟨?_, ?_, ?_⟩, fun h => ⟨?_, ?_, ?_⟩, fun h he => ⟨?_, ?_⟩,
    fun hs => ⟨fun h => ⟨?_, ?_, ?_⟩, fun h => ⟨?_, ?_, ?_⟩, fun h he => ⟨?_, ?_⟩⟩,
    fun hf => ⟨fun h => ⟨?_, ?_, ?_, ?_⟩, fun h => ⟨?_, ?_⟩, fun h hs => ?_⟩,
    fun hc => ⟨fun h => ⟨?_, ?_, ?_, ?_⟩, fun h => ⟨?_, ?_⟩, fun h hs => ?_⟩⟩
  · exact direct (sz := .half) rfl h
  · exact direct (sz := .half) rfl h
  · exact direct (sz := .half) rfl h
  · exact direct (sz := .word) rfl h
  · exact direct (sz := .word) rfl h
  · exact direct (sz := .word) rfl h
  · exact direct (sz := .dword) (congrArg Res.out (evenRd_even _ he)) h
  · exact direct (sz := .dword) (congrArg Res.out (evenRd_even _ he)) h
  · exact direct (sz := .half) (exec_supervisor hs rfl) h
  · exact direct (sz := .half) (exec_supervisor hs rfl) h
  · exact direct (sz := .half) (exec_supervisor hs rfl) h
  · exact direct (sz := .word) (exec_supervisor hs rfl) h
  · exact direct (sz := .word) (exec_supervisor hs rfl) h
  · exact direct (sz := .word) (exec_supervisor hs rfl) h
  · exact direct (sz := .dword) ((exec_supervisor hs rfl).trans (congrArg Res.out (evenRd_even _ he))) h
  · exact direct (sz := .dword) ((exec_supervisor hs rfl).trans (congrArg Res.out (evenRd_even _ he))) h
  · exact fp (sz := .word) rfl hf h
  · exact fp (sz := .word) rfl hf h
  · exact fp (sz := .word) rfl hf h
  · exact fp (sz := .word) rfl hf h
  · exact fp (sz := .dword) rfl hf h
  · exact fp (sz := .dword) rfl hf h
  · exact fp (sz := .dword) (congrArg Res.out (privileged_supervisor _ hs)) hf h
  · exact cp (sz := .word) rfl hc h
  · exact cp (sz := .word) rfl hc h
  · exact cp (sz := .word) rfl hc h
  · exact cp (sz := .word) rfl hc h
  · exact cp (sz := .dword) rfl hc h
  · exact cp (sz := .dword) rfl hc h
  · exact cp (sz := .dword) (congrArg Res.out (privileged_supervisor _ hs)) hc h

end Sys2Proof.Machine
end

section
/-! Accesses that raise the access exception: those that go nowhere and those whose translation fails
(20_memory.md R108, R115, R119; 21_reference_mmu.md R182, R192). -/

namespace Sys2Proof.Machine

theorem AccessFrame.cfg {s t : State} (h : AccessFrame s t) : t.cfg = s.cfg := by rw [h.rest]

theorem AccessFrame.now {s t : State} (h : AccessFrame s t) : t.now = s.now := by rw [h.rest]

/-! ### A route to where nothing stands -/

/-- The route of an access raises the exception in `t`, or leads in `t` to an address where nothing stands. -/
def RouteFails (m : MemRes Route) (x : Trap) (t : State) : Prop :=
  m = .fault x t ∨ ∃ asi pa mmu, m = .ok (.memory asi pa mmu) t ∧ regionKind t.cfg asi pa = .unmapped

theorem locationKind_unmapped {s : State} {asi : BitVec 8} {pa : Nat} (va : Word)
    (h : regionKind s.cfg asi pa = .unmapped) : locationKind s asi va pa = .unmapped := by
  unfold locationKind
  rw [h]

theorem route_absent {s : State} {asi : BitVec 8} {a : Word} {z : Size} (h : AbsentAccess s asi a z) (k : AccessKind)
    (store : Bool) : RouteFails (route s k asi a store) (accessException k) s := by
  obtain ⟨hm, -, h⟩ := h
  have hq := (accessQuiet_of_none hm k).1
  unfold route
  simp only [hq]
  rcases h with hu | ⟨pa, hp, hs⟩
  · rw [hu]
    exact .inl rfl
  · unfold plainPa at hp
    split at hp
    · next hn =>
      split at hp
      · cases hp
      · next ht =>
        cases hp
        simp only [hn, ht]
        exact .inr ⟨_, _, _, rfl, hs⟩
    · next hn =>
      cases hp
      simp only [hn]
      exact .inr ⟨_, _, _, rfl, hs⟩
    · cases hp

theorem route_translationFails {s t : State} {asi : BitVec 8} {a : Word} {z : Size} {k : AccessKind} {store : Bool}
    (h : TranslationFails s asi a z
      (if k = .second then translateCached s k (decodedAsi s.cfg asi) a store
        else translate s k (decodedAsi s.cfg asi) a store) t) :
    RouteFails (route s k asi a store) (accessException k) t := by
  obtain ⟨hm, -, hn, ht, h⟩ := h
  have hq := (accessQuiet_of_none hm k).1
  have hi : internalPresented s k = false := by cases k <;> simp [internalPresented, hm]
  have hframe : AccessFrame s (if k = .second then translateCached s k (decodedAsi s.cfg asi) a store
        else translate s k (decodedAsi s.cfg asi) a store).state := by
    split
    · exact translateCached_frame ..
    · exact translate_frame ..
  have hnf : (if k = .second then translateCached s k (decodedAsi s.cfg asi) a store
        else translate s k (decodedAsi s.cfg asi) a store).state.mmu.nf = s.mmu.nf := by
    split
    · exact translateCached_nf ..
    · exact translateCached_nf ..
  unfold route translatedRoute
  simp only [hq, hn, ht, hi, if_true, Bool.false_eq_true, if_false]
  rcases h with ⟨hf, ft, q, ho⟩ | ⟨p, l, ho, hs⟩
  · rw [ho] at hnf ⊢
    have hfs : faultSuppressed t (decodedAsi s.cfg asi) = false := by
      unfold faultSuppressed
      rw [show t.mmu.nf = s.mmu.nf from hnf]
      rcases hf with hf | hf <;> simp [hf]
    simp only [mmuFault, hfs]
    exact .inl rfl
  · rw [ho] at hframe ⊢
    have hc : t.cfg = s.cfg := hframe.cfg
    exact .inr ⟨_, _, _, rfl, by rw [hc]; exact hs⟩

section
variable {m : MemRes Route} {x : Trap} {t : State} {k : AccessKind}

theorem readAt_unmapped {asi : BitVec 8} {pa : Nat} {mmu : Bool} (hm : t.now.machineCheck = none)
    (h : regionKind t.cfg asi pa = .unmapped) (va : Word) (z : Size) :
    readAt t k (.memory asi pa mmu) va z = .fault (accessException k) t := by
  have hq := accessQuiet_of_none hm k
  simp only [readAt, physicalRead, hq.2.1, hq.2.2, locationKind_unmapped va h, Bool.false_eq_true, if_false]

theorem writeAt_unmapped {asi : BitVec 8} {pa : Nat} {mmu : Bool} (hm : t.now.machineCheck = none)
    (h : regionKind t.cfg asi pa = .unmapped) (va v : Word) (z : Size) :
    writeAt t k (.memory asi pa mmu) va v z = .fault (accessException k) t := by
  have hq := accessQuiet_of_none hm k
  simp only [writeAt, physicalWrite, hq.2.1, hq.2.2, locationKind_unmapped va h, Bool.false_eq_true, if_false]

/-- A read by such a route raises the exception, whatever would follow it. -/
theorem RouteFails.read (h : RouteFails m (accessException k) t) (hm : t.now.machineCheck = none) (va : Word)
    (z : Size) : (m.andThen fun r s => readAt s k r va z) = .fault (accessException k) t := by
  rcases h with rfl | ⟨asi, pa, mmu, rfl, hu⟩
  · rfl
  · exact readAt_unmapped hm hu va z

theorem RouteFails.read_bind (h : RouteFails m (accessException k) t) (hm : t.now.machineCheck = none) (va : Word)
    (z : Size) (f : Route → Word → State → Res) :
    (m.bind fun r s => (readAt s k r va z).bind (f r)) = .trap (accessException k) t := by
  rcases h with rfl | ⟨asi, pa, mmu, rfl, hu⟩
  · rfl
  · show (readAt t k (.memory asi pa mmu) va z).bind _ = _
    rw [readAt_unmapped hm hu va z]
    rfl

theorem RouteFails.write (h : RouteFails m (accessException k) t) (hm : t.now.machineCheck = none) (va v : Word)
    (z : Size) : (m.andThen fun r s => writeAt s k r va v z) = .fault (accessException k) t := by
  rcases h with rfl | ⟨asi, pa, mmu, rfl, hu⟩
  · rfl
  · exact writeAt_unmapped hm hu va v z

theorem RouteFails.write_bind (h : RouteFails m (accessException k) t) (hm : t.now.machineCheck = none)
    (va v : Word) (z : Size) (f : Route → Unit → State → Res) :
    (m.bind fun r s => (writeAt s k r va v z).bind (f r)) = .trap (accessException k) t := by
  rcases h with rfl | ⟨asi, pa, mmu, rfl, hu⟩
  · rfl
  · show (writeAt t k (.memory asi pa mmu) va v z).bind _ = _
    rw [writeAt_unmapped hm hu va v z]
    rfl

end

/-! ### Loads, stores and the writes of atomics that fail -/

section
variable {s t : State} {asi : BitVec 8} {a : Word} {z : Size}

theorem LoadFails.route (h : LoadFails s asi a z t) :
    RouteFails (Machine.route s .first asi a false) .dataAccessException t := by
  rcases h with ⟨h, rfl⟩ | h
  · exact route_absent h .first false
  · exact route_translationFails (k := .first) h

theorem LoadFails.aligned (h : LoadFails s asi a z t) : a.toNat % z.alignment = 0 := by
  rcases h with ⟨h, -⟩ | h
  · exact h.2.1
  · exact h.2.1

theorem LoadFails.frame (h : LoadFails s asi a z t) : AccessFrame s t := by
  rcases h with ⟨-, rfl⟩ | ⟨-, -, -, -, ⟨-, ft, q, ho⟩ | ⟨p, l, ho, -⟩⟩
  · exact .refl t
  · have hf := translate_frame s .first (decodedAsi s.cfg asi) a false
    rwa [ho] at hf
  · have hf := translate_frame s .first (decodedAsi s.cfg asi) a false
    rwa [ho] at hf

theorem LoadFails.quiet (h : LoadFails s asi a z t) : t.now.machineCheck = none := by
  have hq : s.now.machineCheck = none := by
    rcases h with ⟨h, -⟩ | h
    · exact h.1
    · exact h.1
  rw [h.frame.rest]
  exact hq

theorem StoreFails.route (h : StoreFails s asi a z t) :
    RouteFails (writeRoute s .first asi a) .dataAccessException t := by
  rcases h with ⟨h, rfl⟩ | h
  · exact route_absent (s := { s with storeBarrierPending := false }) h .first true
  · exact route_translationFails (s := { s with storeBarrierPending := false }) (k := .first) h

theorem StoreFails.aligned (h : StoreFails s asi a z t) : a.toNat % z.alignment = 0 := by
  rcases h with ⟨h, -⟩ | h
  · exact h.2.1
  · exact h.2.1

theorem StoreFails.quiet (h : StoreFails s asi a z t) : t.now.machineCheck = none := by
  have frame (o : Translation) (ho : o.state = t)
      (hf : AccessFrame { s with storeBarrierPending := false } o.state) : t.now = s.now := by
    rw [ho] at hf
    exact hf.now
  rcases h with ⟨h, rfl⟩ | ⟨hm, -, -, -, ⟨-, ft, q, ho⟩ | ⟨p, l, ho, -⟩⟩
  · exact h.1
  · rw [frame _ (by rw [ho]; rfl) (translate_frame ..)]
    exact hm
  · rw [frame _ (by rw [ho]; rfl) (translate_frame ..)]
    exact hm

theorem WriteHalfFails.route (h : WriteHalfFails s asi a z t) :
    RouteFails (writeRoute s .second asi a) .dataAccessException t := by
  rcases h with ⟨h, rfl⟩ | h
  · exact route_absent (s := { s with storeBarrierPending := false }) h .second true
  · exact route_translationFails (s := { s with storeBarrierPending := false }) (k := .second) h

theorem WriteHalfFails.quiet (h : WriteHalfFails s asi a z t) : t.now.machineCheck = none := by
  have frame (o : Translation) (ho : o.state = t)
      (hf : AccessFrame { s with storeBarrierPending := false } o.state) : t.now = s.now := by
    rw [ho] at hf
    exact hf.now
  rcases h with ⟨h, rfl⟩ | ⟨hm, -, -, -, ⟨-, ft, q, ho⟩ | ⟨p, l, ho, -⟩⟩
  · exact h.1
  · rw [frame _ (by rw [ho]; rfl) (translateCached_frame ..)]
    exact hm
  · rw [frame _ (by rw [ho]; rfl) (translateCached_frame ..)]
    exact hm

theorem LoadFails.memRead (h : LoadFails s asi a z t) (y : Size) :
    Machine.memRead s .first asi a y = .fault .dataAccessException t :=
  RouteFails.read (k := .first) h.route h.quiet a y

theorem StoreFails.memWrite (h : StoreFails s asi a z t) (v : Word) (y : Size) :
    Machine.memWrite s .first asi a v y = .fault .dataAccessException t :=
  RouteFails.write (k := .first) h.route h.quiet a v y

theorem StoreFails.storeTwo (h : StoreFails s asi a z t) (v w : Word) (f : State → Res) :
    Machine.storeTwo s asi a v w f = .trap .dataAccessException t :=
  RouteFails.write_bind (k := .first) h.route h.quiet a v .dword _

theorem LoadFails.loadInt (h : LoadFails s asi a z t) (extend : Word → Word) (rd : RegNum) :
    Machine.loadInt s asi a z extend rd = .trap .dataAccessException t := by
  rw [Machine.loadInt, aligned_of_mod _ h.aligned, h.memRead]
  rfl

theorem LoadFails.loadPair (h : LoadFails s asi a .dword t) (rd : RegNum) :
    Machine.loadPair s asi a rd = .trap .dataAccessException t := by
  rw [Machine.loadPair, aligned_of_mod _ h.aligned]
  exact RouteFails.read_bind (k := .first) h.route h.quiet a .dword _

theorem StoreFails.storeInt (h : StoreFails s asi a z t) (v : Word) :
    Machine.storeInt s asi a z v = .trap .dataAccessException t := by
  rw [Machine.storeInt, aligned_of_mod _ h.aligned, h.memWrite]
  rfl

theorem StoreFails.storePair (h : StoreFails s asi a .dword t) (rd : RegNum) :
    Machine.storePair s asi a rd = .trap .dataAccessException t := by
  rw [Machine.storePair, aligned_of_mod _ h.aligned, h.storeTwo]

theorem LoadFails.atomic (h : LoadFails s asi a z t) (hb : s.blockByte = false) (hw : s.blockWord = false)
    (v : Word) (rd : RegNum) : Machine.atomic s asi a z v rd = .trap .dataAccessException t := by
  rw [Machine.atomic, aligned_of_mod _ h.aligned, if_neg (by simp [hb, hw]), h.memRead]
  rfl

/-- The write of an atomic that fails behind its read. -/
theorem atomic_writeFails {p : Place} (h : LoadAt s p asi a z t) (hb : s.blockByte = false)
    (hw : s.blockWord = false) (v : Word) (rd : RegNum) :
    ∃ old u, Delivers p t asi z false old u ∧
      ∀ r, WriteHalfFails u asi a z r → Machine.atomic s asi a z v rd = .trap .dataAccessException r := by
  obtain ⟨old, u, hr, hd⟩ := memRead_loadAt h
  refine ⟨old, u, hd, fun r hf => ?_⟩
  rw [Machine.atomic, aligned_of_mod _ h.aligned, if_neg (by simp [hb, hw]), hr]
  show (Machine.memWrite u .second asi a v z).bind _ = _
  have hwr : Machine.memWrite u .second asi a v z = .fault .dataAccessException r :=
    RouteFails.write (k := .second) hf.route hf.quiet a v z
  rw [hwr]
  rfl

end

/-! ### Floating-point loads that fail -/

theorem foldl_faultedFreg_none {t : State} (h : t.cfg.fpLoadFaultValue = none) (dests : List RegNum) :
    dests.foldl faultedFreg t = t := by
  induction dests with
  | nil => rfl
  | cons n ns ih =>
    have hn : faultedFreg t n = t := by
      unfold faultedFreg
      rw [h]
    rw [List.foldl_cons, hn, ih]

theorem foldl_faultedFreg_some {t : State} {v : Word} (h : t.cfg.fpLoadFaultValue = some v) (dests : List RegNum) :
    dests.foldl faultedFreg t = { t with fregs := (dests.foldl faultedFreg t).fregs } ∧
      ∀ n, freg (dests.foldl faultedFreg t) n = if n ∈ dests then v else freg t n := by
  induction dests generalizing t with
  | nil => exact ⟨rfl, fun n => rfl⟩
  | cons m ms ih =>
    have hm : faultedFreg t m = setFreg t m v := by
      unfold faultedFreg
      rw [h]
    obtain ⟨hrest, hval⟩ := ih (t := setFreg t m v) h
    rw [List.foldl_cons, hm]
    refine ⟨hrest, fun n => ?_⟩
    rw [hval]
    by_cases hn : n = m
    · subst hn
      simp
    · simp [hn, freg_setFreg_ne t m n v hn]

/-- What a failing floating-point load leaves in its destinations (40_load_store.md R335). -/
theorem faultedFregs_written (t : State) (dests : List RegNum) :
    dests.foldl faultedFreg t = { t with fregs := (dests.foldl faultedFreg t).fregs } ∧
      FregsWritten t (dests.foldl faultedFreg t)
        (match t.cfg.fpLoadFaultValue with
        | none => []
        | some v => dests.map fun n => (n, v)) := by
  cases h : t.cfg.fpLoadFaultValue with
  | none =>
    rw [foldl_faultedFreg_none h]
    exact ⟨rfl, fun _ hx => (List.not_mem_nil hx).elim, fun _ _ => rfl⟩
  | some v =>
    obtain ⟨hrest, hval⟩ := foldl_faultedFreg_some h dests
    refine ⟨hrest, fun x hx => ?_, fun n hn => ?_⟩
    · obtain ⟨n, hn, rfl⟩ := List.mem_map.mp hx
      rw [hval, if_pos hn]
    · rw [hval, if_neg]
      exact fun hmem => hn (n, v) (List.mem_map.mpr ⟨n, hmem, rfl⟩) rfl

theorem evenFreg_even {s : State} {rd : RegNum} (k : Res) (h : s.cfg.misalignedFregTraps = false ∨ rd.toNat % 2 = 0) :
    evenFreg s rd k = k := by
  have hbit : rd.getLsbD 0 = decide (rd.toNat % 2 = 1) := by simp [BitVec.getLsbD, Nat.testBit_zero]
  refine if_neg ?_
  rw [hbit]
  rcases h with h | h <;> simp [h]

/-! ### A floating-point or coprocessor instruction that may go on -/

theorem fpLoad_ready {s : State} {a : Word} {z : Size} {depends : FpWork → Bool} (hr : FpuReady s)
    (ha : a.toNat % z.alignment = 0) (hi : Independent s depends) (k : State → Res) :
    fpEnabled s (aligned s a z (fpProvokes s (fpInSequence s (fpSettled s depends k)))) = k s := by
  obtain ⟨hef, hm⟩ := hr
  rw [fpEnabled_on _ hef, aligned_of_mod _ ha, fpProvokes_execute _ hm, fpInSequence_execute _ hm,
    fpSettled_independent s depends k (by simp [hm]) hi]

theorem fpLoadDouble_ready {s : State} {a : Word} {rd : RegNum} {depends : FpWork → Bool} (hr : FpuReady s)
    (ha : a.toNat % Size.dword.alignment = 0) (he : s.cfg.misalignedFregTraps = false ∨ rd.toNat % 2 = 0)
    (hi : Independent s depends) (k : State → Res) :
    fpEnabled s (aligned s a .dword (fpProvokes s (evenFreg s rd (fpInSequence s (fpSettled s depends k))))) = k s := by
  rw [evenFreg_even _ he, fpLoad_ready hr ha hi]

theorem fpStore_ready {s : State} {a : Word} {z : Size} {depends : FpWork → Bool} (hef : efOn s = true)
    (hm : ∀ r, s.fpuMode ≠ .pending r) (ha : a.toNat % z.alignment = 0) (hi : Independent s depends)
    (k : State → Res) : fpEnabled s (aligned s a z (fpProvokes s (fpSettled s depends k))) = k s := by
  rw [fpEnabled_on _ hef, aligned_of_mod _ ha, fpProvokes_of_mode _ hm, fpSettled_independent s depends k hm hi]

theorem fpStoreDouble_ready {s : State} {a : Word} {rd : RegNum} {depends : FpWork → Bool} (hef : efOn s = true)
    (hm : ∀ r, s.fpuMode ≠ .pending r) (ha : a.toNat % Size.dword.alignment = 0)
    (he : s.cfg.misalignedFregTraps = false ∨ rd.toNat % 2 = 0) (hi : Independent s depends) (k : State → Res) :
    fpEnabled s (aligned s a .dword (fpProvokes s (evenFreg s rd (fpSettled s depends k)))) = k s := by
  rw [evenFreg_even _ he, fpStore_ready hef hm ha hi]

theorem independent_of_empty {s : State} (h : s.fpuQueue = []) (depends : FpWork → Bool) : Independent s depends := by
  simp [Independent, h]

theorem cpProvokes_none {s : State} (k : Res) (hp : s.cpPending = false) : cpProvokes s k = k := if_neg (by simp [hp])

theorem cp_ready {s : State} {a : Word} {z : Size} (hec : ecOn s = true) (ha : a.toNat % z.alignment = 0)
    (hp : s.cpPending = false) (hx : s.now.cpException = false) (request : CpRequest) (k : Res) :
    cpEnabled s (aligned s a z (cpAccepted s request k)) = k := by
  rw [cpEnabled_on _ hec, aligned_of_mod _ ha, cpAccepted_none _ _ hp hx]

/-! ### The statement -/

/-- A failing read of a floating-point load. -/
theorem RouteFails.read_fpBind {m : MemRes Route} {t : State} (h : RouteFails m .dataAccessException t)
    (hm : t.now.machineCheck = none) (va : Word) (z : Size) (dests : List RegNum) (f : Route → Word → State → Res) :
    (fpBind m dests fun r s => fpBind (readAt s .first r va z) dests (f r)) =
      .trap .dataAccessException (dests.foldl faultedFreg t) := by
  rcases h with rfl | ⟨asi, pa, mmu, rfl, hu⟩
  · rfl
  · show fpBind (readAt t .first (.memory asi pa mmu) va z) dests _ = _
    rw [readAt_unmapped hm hu va z]
    rfl

/-- A fetch from where nothing stands. -/
theorem fetch_unmapped {s : State} (hm : s.now.machineCheck = none) (ht : translating s = false)
    (hk : regionKind s.cfg (fetchAsi s) s.pc.toNat = .unmapped) : fetch s = .fault .instructionAccessException s := by
  unfold fetch
  rw [route_plain s .fetch (fetchAsi s) s.pc false (accessQuiet_of_none hm .fetch).1 (fetchAsi_architectural s) ht]
  simp only [MemRes.andThen, readAt_unmapped (k := .fetch) hm hk]
  rfl

/-- Settles O41. -/
theorem accessExceptions : Obligations.AccessExceptions := by
  unfold Obligations.AccessExceptions
  intro s rd rs1 rs2 o asi data address alt altAddress even odd evenRd reads writes atomics
  have out {i : Instr} {r : Res} {t : State} (hi : exec i s = r.out) (hr : r = .trap .dataAccessException t) :
      Traps (exec i s) .dataAccessException t := hi.trans (congrArg Res.out hr)
  have readsOne {sp : BitVec 8} {a : Word} {z : Size} {i : Instr} (r : Res) (hi : exec i s = r.out)
      (hr : ∀ t, LoadFails s sp a z t → r = .trap .dataAccessException t) : reads sp a z [i] := by
    intro t ht j hj
    rw [List.mem_singleton.mp hj]
    exact out hi (hr t ht)
  have readsTwo {sp : BitVec 8} {a : Word} {z : Size} {i j : Instr} (h1 : reads sp a z [i]) (h2 : reads sp a z [j]) :
      reads sp a z [i, j] := by
    intro t ht k hk
    rcases List.mem_cons.mp hk with hk | hk
    · exact h1 t ht k (List.mem_singleton.mpr hk)
    · exact h2 t ht k hk
  have writesOne {sp : BitVec 8} {a : Word} {z : Size} {i : Instr} (r : Res) (hi : exec i s = r.out)
      (hr : ∀ t, StoreFails s sp a z t → r = .trap .dataAccessException t) : writes sp a z [i] := by
    intro t ht j hj
    rw [List.mem_singleton.mp hj]
    exact out hi (hr t ht)
  have writesTwo {sp : BitVec 8} {a : Word} {z : Size} {i j : Instr} (h1 : writes sp a z [i])
      (h2 : writes sp a z [j]) : writes sp a z [i, j] := by
    intro t ht k hk
    rcases List.mem_cons.mp hk with hk | hk
    · exact h1 t ht k (List.mem_singleton.mpr hk)
    · exact h2 t ht k hk
  have load {sp : BitVec 8} {a : Word} {z : Size} {i : Instr} {e : Word → Word}
      (hi : exec i s = (loadInt s sp a z e rd).out) : reads sp a z [i] := readsOne _ hi fun t h => h.loadInt e rd
  have pair {sp : BitVec 8} {a : Word} {i : Instr} (hi : exec i s = (loadPair s sp a rd).out) :
      reads sp a .dword [i] := readsOne _ hi fun t h => h.loadPair rd
  have store {sp : BitVec 8} {a v : Word} {z : Size} {i : Instr} (hi : exec i s = (storeInt s sp a z v).out) :
      writes sp a z [i] := writesOne _ hi fun t h => h.storeInt v
  have two {sp : BitVec 8} {a : Word} {i : Instr} (hi : exec i s = (storePair s sp a rd).out) :
      writes sp a .dword [i] := writesOne _ hi fun t h => h.storePair rd
  have atom {sp : BitVec 8} {a v : Word} {z : Size} {i : Instr} (hi : exec i s = (atomic s sp a z v rd).out) :
      atomics sp a z i := by
    intro hb hw
    refine ⟨readsOne _ hi fun t h => h.atomic hb hw v rd, fun p r h => ?_⟩
    obtain ⟨old, u, hd, hf⟩ := atomic_writeFails h hb hw v rd
    exact ⟨old, u, hd, fun t ht => out hi (hf t ht)⟩
  have pairOk {k : Res} (he : evenRd) : (Machine.evenRd s rd k).out = k.out := congrArg Res.out (evenRd_even k he)
  refine ⟨⟨readsTwo (load rfl) (load rfl), store rfl, atom rfl⟩, ⟨readsTwo (load rfl) (load rfl), store rfl⟩,
    ⟨load (e := id) rfl, store rfl, atom rfl⟩, fun he => ⟨pair (pairOk he), two (pairOk he)⟩, fun hs => ?alternate,
    fun hr hq => ?fp, fun hef hm hq hs hc hfq => ?stdfq, fun hec hp hx => ?cp, fun hmode hnow ha ht hk => ?fetch⟩
  case alternate =>
    exact ⟨⟨readsTwo (load (exec_supervisor hs rfl)) (load (exec_supervisor hs rfl)), store (exec_supervisor hs rfl),
        atom (exec_supervisor hs rfl)⟩,
      ⟨readsTwo (load (exec_supervisor hs rfl)) (load (exec_supervisor hs rfl)), store (exec_supervisor hs rfl)⟩,
      ⟨load (e := id) (exec_supervisor hs rfl), store (exec_supervisor hs rfl), atom (exec_supervisor hs rfl)⟩,
      fun he => ⟨pair ((exec_supervisor hs rfl).trans (pairOk he)), two ((exec_supervisor hs rfl).trans (pairOk he))⟩⟩
  case fp =>
    intro loads
    have hm : ∀ r, s.fpuMode ≠ .pending r := by simp [hr.2]
    have hi := independent_of_empty hq
    have fpLoad {z : Size} {i : Instr} (dests : List RegNum) (h : ∀ t, LoadFails s data address z t →
        exec i s = (Res.trap .dataAccessException (dests.foldl faultedFreg t)).out) : loads z i dests := by
      intro t ht
      obtain ⟨hrest, hval⟩ := faultedFregs_written t dests
      rw [ht.frame.cfg] at hval
      exact ⟨_, h t ht, hrest, hval⟩
    refine ⟨fpLoad _ fun t h => ?_, fpLoad _ fun t h => ?_, writesTwo ?_ ?_, fun he => ⟨fpLoad _ fun t h => ?_, ?_⟩⟩
    · refine congrArg Res.out ((fpLoad_ready hr h.aligned (hi _) _).trans ?_)
      rw [show memRead s .first (dataAsi s) (effectiveAddress s rs1 o) .word = _ from h.memRead .word]
      rfl
    · refine congrArg Res.out ((fpLoad_ready hr h.aligned (hi _) _).trans ?_)
      rw [show memRead s .first (dataAsi s) (effectiveAddress s rs1 o) .word = _ from h.memRead .word]
      rfl
    · exact writesOne _ rfl fun t h => (fpStore_ready hr.1 hm h.aligned (hi _) _).trans (h.storeInt _)
    · refine writesOne _ rfl fun t h => (fpStore_ready hr.1 hm h.aligned (hi _) _).trans ?_
      rw [show memWrite s .first (dataAsi s) (effectiveAddress s rs1 o) (fsrWord s) .word = _ from h.memWrite _ _]
      rfl
    · refine congrArg Res.out ((fpLoadDouble_ready hr h.aligned he (hi _) _).trans ?_)
      rw [show even = evenReg rd from (evenReg_eq rd).symm, show odd = oddReg rd from (oddReg_eq rd).symm]
      exact RouteFails.read_fpBind h.route h.quiet address .dword _ _
    · exact writesOne _ rfl fun t h => (fpStoreDouble_ready hr.1 hm h.aligned he (hi _) _).trans (h.storeTwo _ _ _)
  case stdfq =>
    obtain ⟨e, rest, he⟩ := List.exists_cons_of_ne_nil hfq
    refine writesOne _ rfl fun t h => (privileged_supervisor _ hs).trans
      ((fpStore_ready hef hm h.aligned (independent_of_empty hq _) _).trans ?_)
    rw [hc, he]
    exact h.storeTwo _ _ _
  case cp =>
    refine ⟨⟨readsTwo ?_ ?_, writesTwo ?_ ?_⟩, ⟨?_, ?_⟩, fun hs hc hcq => ?_⟩
    · refine readsOne _ rfl fun t h => (cp_ready hec h.aligned hp hx _ _).trans ?_
      rw [show memRead s .first (dataAsi s) (effectiveAddress s rs1 o) .word = _ from h.memRead .word]
      rfl
    · refine readsOne _ rfl fun t h => (cp_ready hec h.aligned hp hx _ _).trans ?_
      rw [show memRead s .first (dataAsi s) (effectiveAddress s rs1 o) .word = _ from h.memRead .word]
      rfl
    · refine writesOne _ rfl fun t h => (cp_ready hec h.aligned hp hx _ _).trans ?_
      show (memWrite s .first data address _ .word).bind _ = _
      rw [h.memWrite]
      rfl
    · refine writesOne _ rfl fun t h => (cp_ready hec h.aligned hp hx _ _).trans ?_
      show (memWrite s .first data address _ .word).bind _ = _
      rw [h.memWrite]
      rfl
    · refine readsOne _ rfl fun t h => (cp_ready hec h.aligned hp hx _ _).trans ?_
      exact RouteFails.read_bind (k := .first) h.route h.quiet address .dword _
    · exact writesOne _ rfl fun t h => (cp_ready hec h.aligned hp hx _ _).trans (h.storeTwo _ _ _)
    · obtain ⟨e, rest, he⟩ := List.exists_cons_of_ne_nil hcq
      refine writesOne _ rfl fun t h => (privileged_supervisor _ hs).trans ((cpEnabled_on _ hec).trans
        ((aligned_of_mod _ h.aligned).trans ((cpProvokes_none _ hp).trans ?_)))
      rw [hc, he]
      exact (cpAccepted_none _ _ hp hx).trans (h.storeTwo _ _ _)
  case fetch =>
    have hm : (turn (takeInputs s)).now.machineCheck = none := by rw [turn_now, hnow]; rfl
    have hf := fetch_unmapped hm ((turn_translating _).trans ht) (by rw [turn_cfg, turn_pc]; exact hk)
    refine step_of_ended ((prepare_quiet hmode hnow).trans ?_)
    rw [fetchCycle, turn_annul, show (takeInputs s).annul = false from ha, hf]
    rfl

end Sys2Proof.Machine
end

section
/-! Accesses elsewhere than in real memory, fetches, and what stands at a physical address (20_memory.md section 4). -/

namespace Sys2Proof.Machine

/-! ### What stands at a physical address -/

theorem regionHolds_iff (asi : BitVec 8) (pa : Nat) (x : Region) :
    regionHolds asi pa x = true ↔ (x.asis = [] ∨ asi ∈ x.asis) ∧ x.base ≤ pa ∧ pa < x.base + x.size := by
  simp [regionHolds, List.isEmpty_iff, and_assoc]

theorem regionKind_nowhere {c : Config} {asi : BitVec 8} {pa : Nat}
    (h : 2 ^ c.paWidth ≤ pa ∨ ∀ x ∈ c.memoryMap, ¬regionHolds asi pa x = true) : regionKind c asi pa = .unmapped := by
  unfold regionKind
  split
  · rfl
  · next hw =>
    have hf : c.memoryMap.find? (regionHolds asi pa) = none := List.find?_eq_none.mpr (h.resolve_left hw)
    rw [hf]

/-- The first region that holds an address says what stands there (20_memory.md R119). -/
theorem regionKind_first {c : Config} {asi : BitVec 8} {pa : Nat} {before rest : List Region} {x : Region}
    (hm : c.memoryMap = before ++ x :: rest) (hw : pa < 2 ^ c.paWidth)
    (hb : ∀ y ∈ before, ¬regionHolds asi pa y = true) (hx : regionHolds asi pa x = true) :
    regionKind c asi pa = x.kind := by
  have hf : c.memoryMap.find? (regionHolds asi pa) = some x := by
    rw [hm, List.find?_append, List.find?_eq_none.mpr hb, List.find?_cons_of_pos hx]
    rfl
  unfold regionKind
  rw [if_neg (Nat.not_le.mpr hw), hf]

/-! ### Fetches -/

theorem decodedAsi_architectural {c : Config} {asi : BitVec 8} (h : architecturalAsis.contains asi = true) :
    decodedAsi c asi = asi := if_pos h

theorem asiKind_architectural {c : Config} {asi : BitVec 8} (h : architecturalAsis.contains asi = true) :
    asiKind c asi = .normal := if_pos (by rw [decodedAsi_architectural h]; exact h)

/-- A fetch, untranslated or translated, goes to memory in the state its translation leaves. -/
theorem route_fetch {s t : State} {pa : Nat} (hm : s.now.machineCheck = none)
    (h : translating s = false ∧ pa = s.pc.toNat ∧ t = s ∨
      translating s = true ∧ ∃ p k, translate s .fetch (fetchAsi s) s.pc false = .ok p k t ∧ p.toNat = pa) :
    ∃ mmu, route s .fetch (fetchAsi s) s.pc false = .ok (.memory (fetchAsi s) pa mmu) t := by
  have hq := (accessQuiet_of_none hm .fetch).1
  have hi : internalPresented s .fetch = false := by simp [internalPresented, hm]
  have ha := decodedAsi_architectural (c := s.cfg) (fetchAsi_architectural s)
  rcases h with ⟨ht, rfl, rfl⟩ | ⟨ht, p, k, ho, rfl⟩
  · exact ⟨false, route_plain t .fetch (fetchAsi t) t.pc false hq (fetchAsi_architectural t) ht⟩
  · refine ⟨true, ?_⟩
    have hk := asiKind_architectural (c := s.cfg) (fetchAsi_architectural s)
    unfold route translatedRoute
    simp only [hq, hk, ht, hi, ha, if_true, Bool.false_eq_true, if_false, ho, reduceCtorEq]

section
variable {s t : State} {pa : Nat} {mmu : Bool}
  (hr : route s .fetch (fetchAsi s) s.pc false = .ok (.memory (fetchAsi s) pa mmu) t)
  (hm : s.now.machineCheck = none)
include hr

theorem route_fetch_frame : AccessFrame s t := by
  have hf := route_framed s .fetch (fetchAsi s) s.pc false
  rwa [hr] at hf

include hm

/-- A fetch of an I/O location is performed at its device (log 27, log 39). -/
theorem fetch_io (hk : locationKind t (fetchAsi s) s.pc pa = .io) :
    fetch s = .ok (ioWord t .fetch) { t with
      freeDraws := t.freeDraws + 1
      ioTrace := t.ioTrace ++ [⟨false, fetchAsi s, pa, .word, ioWord t .fetch⟩] } := by
  have hf := route_fetch_frame hr
  have hq := accessQuiet_of_none (show t.now.machineCheck = none by rw [hf.now]; exact hm) .fetch
  have hpc : t.pc = s.pc := by rw [hf.rest]
  unfold fetch
  rw [hr]
  rw [← hpc] at hk
  simp only [MemRes.andThen, readAt, physicalRead, hq.2.1, hq.2.2, hk, Bool.false_eq_true, if_false, ioRead]
  exact if_pos hk

/-- A fetch of memory delivers the word there, or a copy of it (log 27). -/
theorem fetch_memory (hk : locationKind t (fetchAsi s) s.pc pa = .realMemory ∨
      locationKind t (fetchAsi s) s.pc pa = .rom) :
    fetch s = .ok (fetchedWord t pa (wordAt t pa)).1 (fetchedWord t pa (wordAt t pa)).2 := by
  have hf := route_fetch_frame hr
  have hq := accessQuiet_of_none (show t.now.machineCheck = none by rw [hf.now]; exact hm) .fetch
  have hpc : t.pc = s.pc := by rw [hf.rest]
  unfold fetch
  rw [hr]
  rcases hk with hk | hk <;>
    simp only [MemRes.andThen, readAt, physicalRead, hq.2.1, hq.2.2, hpc, hk, Bool.false_eq_true, if_false,
      reduceCtorEq] <;>
    rfl

end

/-! ### The statement -/

/-- Settles O42. -/
theorem accessesElsewhere : Obligations.AccessesElsewhere := by
  unfold Obligations.AccessesElsewhere
  refine ⟨?accesses, ?fetches, ?kinds, ?map⟩
  case accesses =>
    intro s t rd rs1 rs2 o asi p data address alt altAddress even odd evenRd elsewhere signByte signHalf loads loadsPair
      stores atomics v pair
    have load {sp : BitVec 8} {a : Word} {z : Size} {i : Instr} {e : Word → Word}
        (hi : exec i s = (loadInt s sp a z e rd).out) : loads sp a z i e := fun h => load_writesReg h hi
    have hb : signByte = Machine.signByte := funext fun v => (signByte_eq v).symm
    have hh : signHalf = Machine.signHalf := funext fun v => (signHalf_eq v).symm
    have heven : even = evenReg rd := (evenReg_eq rd).symm
    have hodd : odd = oddReg rd := (oddReg_eq rd).symm
    have two {sp : BitVec 8} {a : Word} {i : Instr} (hi : exec i s = (loadPair s sp a rd).out) :
        loadsPair sp a i := by
      intro h
      rw [heven, hodd]
      exact loadPair_writesRegs h hi
    have store {sp : BitVec 8} {a v : Word} {z : Size} {i : Instr} (hi : exec i s = (storeInt s sp a z v).out) :
        stores sp a z i [v] := fun h => store_puts h hi
    have storeTwo {sp : BitVec 8} {a : Word} {i : Instr} (hi : exec i s = (storePair s sp a rd).out) :
        stores sp a .dword i pair := by
      intro h
      show Puts p (exec i s) t sp a .dword [reg s even, reg s odd] []
      rw [heven, hodd]
      exact storePair_puts h hi
    have pairOk {k : Res} (he : evenRd) : (Machine.evenRd s rd k).out = k.out := congrArg Res.out (evenRd_even k he)
    refine ⟨fun _ => ⟨?data, fun hs => ?alternate⟩, fun hb hw => ?atomic⟩
    case data =>
      rw [hb, hh]
      exact ⟨load rfl, load rfl, load rfl, load rfl, load rfl, store rfl, store rfl, store rfl,
        fun he => ⟨two (pairOk he), storeTwo (pairOk he)⟩⟩
    case alternate =>
      rw [hb, hh]
      exact ⟨load (exec_supervisor hs rfl), load (exec_supervisor hs rfl), load (exec_supervisor hs rfl),
        load (exec_supervisor hs rfl), load (exec_supervisor hs rfl), store (exec_supervisor hs rfl),
        store (exec_supervisor hs rfl), store (exec_supervisor hs rfl),
        fun he => ⟨two ((exec_supervisor hs rfl).trans (pairOk he)), storeTwo ((exec_supervisor hs rfl).trans (pairOk he))⟩⟩
    case atomic =>
      have bytes {sp : BitVec 8} {a : Word} {i : Instr} (hi : exec i s = (atomic s sp a .byte 0xFFFFFFFF#32 rd).out) :
          atomics sp a .byte i 0xFF#32 := by
        intro h
        obtain ⟨old, u, hd, hp⟩ := atomic_puts (w := 0xFF#32) hb hw
          (fun q r b => placeWrite_byte q r .second b a rfl) h hi
        exact ⟨old, u, hd, fun q r _ hq => hp q r hq⟩
      have words {sp : BitVec 8} {a : Word} {i : Instr} (hi : exec i s = (atomic s sp a .word v rd).out) :
          atomics sp a .word i v := by
        intro h
        obtain ⟨old, u, hd, hp⟩ := atomic_puts hb hw (fun _ _ _ => rfl) h hi
        exact ⟨old, u, hd, fun q r _ hq => hp q r hq⟩
      exact ⟨bytes rfl, words rfl, fun hs => ⟨bytes (exec_supervisor hs rfl), words (exec_supervisor hs rfl)⟩⟩
  case fetches =>
    intro s t pa hm space h kind
    obtain ⟨mmu, hr⟩ := route_fetch hm h
    refine ⟨fun hk => ⟨_, fetch_io hr hm hk, fun d hd => ?_⟩, fun hk => ?_⟩
    · have hn : t.now = s.now := (route_fetch_frame hr).now
      simp only [ioWord, hn, hd]
    · have hf := fetch_memory hr hm hk
      have hc : t.cfg = s.cfg := (route_fetch_frame hr).cfg
      obtain ⟨hcoherent, hstale⟩ := fetchedWord_cases t pa (wordAt t pa)
      refine ⟨fun hi => by rw [hf, hcoherent (hc ▸ hi)], fun hi => ?_⟩
      obtain ⟨w, hw, hv⟩ := hstale (hc ▸ hi)
      exact ⟨w, by rw [hf, hw], hv⟩
  case kinds =>
    intro s asi va pa h
    rcases h with h | h
    · exact locationKind_plain s asi va pa h
    · exact locationKind_other s asi va pa (by simpa [architecturalAsis] using h)
  case map =>
    intro c asi pa holds width
    have hh (x : Region) : regionHolds asi pa x = true ↔ holds x := regionHolds_iff asi pa x
    refine ⟨fun h => regionKind_nowhere (h.imp id fun hn x hx => (hh x).not.mpr (hn x hx)), fun before x rest hm hw hb hx => ?_⟩
    exact regionKind_first hm hw (by simpa only [hh] using hb) ((hh x).mpr hx)

end Sys2Proof.Machine
end

section
/-! Floating-point loads and stores (40_load_store.md sections 3 and 6) by the place of their accesses. -/

namespace Sys2Proof.Machine

/-! ### Writes to f registers -/

theorem FregsWritten.refl (s : State) : FregsWritten s s [] :=
  ⟨fun _ hx => (List.not_mem_nil hx).elim, fun _ _ => rfl⟩

/-- One more f register written. -/
theorem FregsWritten.snoc {s t : State} {xs : List (RegNum × Word)} (h : FregsWritten s t xs) (m : RegNum) (v : Word)
    (hm : ∀ x ∈ xs, x.1 ≠ m) : FregsWritten s (setFreg t m v) (xs ++ [(m, v)]) := by
  obtain ⟨hv, hrest⟩ := h
  refine ⟨fun x hx => ?_, fun n hn => ?_⟩
  · rcases List.mem_append.mp hx with hx | hx
    · rw [freg_setFreg_ne t m x.1 v (hm x hx)]
      exact hv x hx
    · obtain rfl := List.mem_singleton.mp hx
      exact freg_setFreg_same t m v
  · rw [freg_setFreg_ne t m n v (hn (m, v) (by simp))]
    exact hrest n fun x hx => hn x (by simp [hx])

theorem FregsWritten.congr {s t u : State} {xs : List (RegNum × Word)} (h : FregsWritten s t xs)
    (hf : u.fregs = t.fregs) : FregsWritten s u xs := by
  have hfreg (n : RegNum) : freg u n = freg t n := by simp only [freg, hf]
  obtain ⟨hv, hrest⟩ := h
  exact ⟨fun x hx => (hfreg _).trans (hv x hx), fun n hn => (hfreg n).trans (hrest n hn)⟩

theorem FregsWritten.of_eq {s t : State} (hf : t.fregs = s.fregs) : FregsWritten s t [] := (FregsWritten.refl s).congr hf

/-! ### Loads -/

/-- A floating-point load reads as a load does, and goes on with what its place delivers. -/
theorem fpRead_at {s t : State} {p : Place} {asi : BitVec 8} {a : Word} {z : Size} (h : LoadAt s p asi a z t)
    (dests : List RegNum) (k : Word → State → Res) :
    ∃ v u, Delivers p t asi z false v u ∧ fpBind (memRead s .first asi a z) dests k = k v u := by
  obtain ⟨v, u, hr, hd⟩ := memRead_loadAt h
  exact ⟨v, u, hd, by rw [hr]; rfl⟩

/-- The reads of LDDF, its first word in its register before the second is read (log 43). -/
theorem fpReadPair_at {s t : State} {p : Place} {asi : BitVec 8} {a : Word} (h : LoadAt s p asi a .dword t)
    (dests : List RegNum) (n : RegNum) (k : Word → State → Res) :
    ∃ v0 v1 u, DeliversPair p t asi v0 v1 u ∧
      (fpBind (route s .first asi a false) dests fun r s =>
        fpBind (readAt s .first r a .dword) dests fun v s =>
          fpBind (readAt (setFreg s n v) .second r.next (a + 4#32) .dword) dests k) =
        k v1 (setFreg u n v0) := by
  obtain ⟨r, hr, hp⟩ := route_loadAt h
  have hm : t.now.machineCheck = none := by rw [h.frame.now]; exact h.quiet
  have hc : t.cfg = s.cfg := h.frame.cfg
  obtain ⟨v0, w, hw, hd0⟩ := readAt_delivers (k := .first) (z := .dword) hm (by decide) (by rw [hc]) hp
  have hwrest := hd0.rest
  have hp2 := hp.next (u := setFreg w n v0) (by rw [setFreg_mmu, hwrest]) (by rw [setFreg_cfg, hwrest]) h.aligned
  obtain ⟨v1, x, hx, hd1⟩ := readAt_delivers (k := .second) (z := .dword) (by rw [setFreg_now, hwrest]; exact hm)
    (by decide) (by rw [setFreg_cfg, hwrest, hc]) hp2
  obtain ⟨u, hd1, hxu⟩ := Delivers.withRegs (t := w) (g := w.globals) (w := w.windowed) hd1
  have hx' : x = setFreg u n v0 := by
    rw [hxu, hd1.rest]
    rfl
  refine ⟨v0, v1, u, ⟨w, hd0, hd1⟩, ?_⟩
  rw [hr]
  show fpBind (readAt t .first r a .dword) dests _ = _
  rw [hw]
  show fpBind (readAt (setFreg w n v0) .second r.next (a + 4#32) .dword) dests k = _
  rw [hx, hx']
  rfl

theorem extract_eq_ofNat (v : Word) (start len : Nat) :
    v.extractLsb' start len = BitVec.ofNat len (v.toNat / 2 ^ start) := by
  apply BitVec.eq_of_toNat_eq
  rw [BitVec.extractLsb'_toNat, BitVec.toNat_ofNat, Nat.shiftRight_eq_div_pow]

theorem loadFsr_eq (c : Config) (f : Fsr) (v : Word) :
    loadFsr c f v = { f with
      rd := BitVec.ofNat 2 (v.toNat / 2 ^ 30), tem := BitVec.ofNat 5 (v.toNat / 2 ^ 23)
      ns := v.getLsbD 22 && storesNs c
      fcc := BitVec.ofNat 2 (v.toNat / 2 ^ 10), aexc := BitVec.ofNat 5 (v.toNat / 2 ^ 5)
      cexc := BitVec.ofNat 5 v.toNat } := by
  rw [loadFsr]
  simp only [extract_eq_ofNat, Nat.pow_zero, Nat.div_one]

/-- Settles O43. -/
theorem floatingLoads : Obligations.FloatingLoads := by
  unfold Obligations.FloatingLoads
  intro s t rd rs1 o p hr data address loads even odd
  refine ⟨fun h hi => ?_, fun h he hi => ?_, fun h hq => ?_⟩
  · obtain ⟨v, u, hd, he⟩ := fpRead_at h [rd] fun v s => .done (advance (setFreg s rd v))
    have hrest := hd.rest
    have hf : u.fregs = s.fregs := by rw [hrest, h.frame.rest]
    have hn : u.npc = s.npc := by rw [hrest, h.frame.rest]
    have hx : exec (.ldf rd rs1 o) s = Res.out (.done (advance (setFreg u rd v))) :=
      congrArg Res.out ((fpLoad_ready hr h.aligned hi _).trans he)
    refine ⟨v, u, hd, _, hx, ?_, fun a => ?_, ?_⟩
    · exact ((FregsWritten.of_eq hf).snoc rd v (by simp)).congr rfl
    · rw [advance_mem, setFreg_mem, hrest]
    · rw [← hn]
      rfl
  · have hev : even = evenReg rd := (evenReg_eq rd).symm
    have hod : odd = oddReg rd := (oddReg_eq rd).symm
    rw [hev, hod] at hi ⊢
    obtain ⟨v0, v1, u, hd, he'⟩ := fpReadPair_at h [evenReg rd, oddReg rd] (evenReg rd)
      fun v s => .done (advance (setFreg s (oddReg rd) v))
    obtain ⟨w, hd0, hd1⟩ := hd
    have hrest := hd1.rest
    have hrest0 := hd0.rest
    have hf : u.fregs = s.fregs := by rw [hrest, hrest0, h.frame.rest]
    have hn : u.npc = s.npc := by rw [hrest, hrest0, h.frame.rest]
    have hmem : u.mem = t.mem := by rw [hrest, hrest0]
    have hx : exec (.lddf rd rs1 o) s =
        Res.out (.done (advance (setFreg (setFreg u (evenReg rd) v0) (oddReg rd) v1))) :=
      congrArg Res.out ((fpLoadDouble_ready hr h.aligned he hi _).trans he')
    refine ⟨v0, v1, u, ⟨w, hd0, hd1⟩, _, hx, ?_, fun a => ?_, ?_⟩
    · exact (((FregsWritten.of_eq hf).snoc (evenReg rd) v0 (by simp)).snoc (oddReg rd) v1
        (by simpa using evenReg_ne_oddReg rd)).congr rfl
    · rw [advance_mem, setFreg_mem, setFreg_mem, hmem]
    · rw [← hn]
      rfl
  · obtain ⟨v, u, hd, he⟩ := fpRead_at h [] fun v s =>
      .done (advance { s with fsr := loadFsr s.cfg s.fsr v, fccWindow := 4 })
    have hrest := hd.rest
    have hn : u.npc = s.npc := by rw [hrest, h.frame.rest]
    have hs : u.fsr = s.fsr := by rw [hrest, h.frame.rest]
    have hc : u.cfg = s.cfg := by rw [hrest, h.frame.rest]
    refine ⟨v, u, hd, (congrArg Res.out ((fpLoad_ready hr h.aligned (independent_of_empty hq _) _).trans he)).trans ?_⟩
    simp only [← loadFsr_eq]
    rw [← hn, ← hs, ← hc]
    rfl

/-! ### Stores -/

theorem fsrWord_eq (s : State) :
    fsrWord s = BitVec.ofNat 32
      (s.fsr.rd.toNat * 2 ^ 30 + s.fsr.tem.toNat * 2 ^ 23
        + (if s.fsr.ns && storesNs s.cfg then 2 ^ 22 else 0) + s.cfg.fsrVer.toNat * 2 ^ 17
        + s.fsr.ftt.toNat * 2 ^ 14 + (if s.fq = [] then 0 else 2 ^ 13) + s.fsr.fcc.toNat * 2 ^ 10
        + s.fsr.aexc.toNat * 2 ^ 5 + s.fsr.cexc.toNat) := by
  have hns : (if s.fsr.ns && storesNs s.cfg then 2 ^ 22 else 0) = (s.fsr.ns && storesNs s.cfg).toNat * 2 ^ 22 := by
    cases (s.fsr.ns && storesNs s.cfg) <;> rfl
  have hq : (if s.fq = [] then 0 else 2 ^ 13) = (qne s).toNat * 2 ^ 13 := by
    unfold qne
    cases s.fq <;> simp
  have hlt := (fsrWord s).isLt
  rw [hns, hq]
  apply BitVec.eq_of_toNat_eq
  rw [BitVec.toNat_ofNat]
  simp only [fsrWord, append_toNat, BitVec.toNat_ofBool, BitVec.toNat_ofNat] at hlt ⊢
  omega

/-- STFSR clears ftt behind its store. -/
theorem clearFtt_finishes {s : State} (hb : s.storeBarrierPending = false) :
    Finishes (fun x => advance { x with fsr := { x.fsr with ftt := 0#3 } }) s
      { s with fsr := { s.fsr with ftt := 0#3 } } [] where
  mem := rfl
  staleWords := rfl
  freeDraws := rfl
  ioTrace := rfl
  barrier := hb
  regs x hx := by
    rw [hx]
    exact (RegsWritten.refl s _).congr rfl rfl rfl
  rest x hx := by
    rw [hx, ← hb]
    rfl

/-- STDFQ takes the front entry off the queue behind its store. -/
theorem popFq_finishes {s : State} (hb : s.storeBarrierPending = false) {e : FqEntry} {rest : List FqEntry}
    (hq : s.fq = e :: rest) :
    Finishes (fun x => advance (popFq x)) s
      { s with fq := rest, fpuMode := if rest = [] then .execute else s.fpuMode } [] where
  mem := rfl
  staleWords := rfl
  freeDraws := rfl
  ioTrace := rfl
  barrier := hb
  regs x hx := by
    rw [hx]
    exact (RegsWritten.refl s _).congr rfl rfl rfl
  rest x hx := by
    have hmode : (if s.fq.tail.isEmpty then FpuMode.execute else s.fpuMode) =
        if rest = [] then .execute else s.fpuMode := by
      rw [hq]
      cases rest <;> rfl
    have htail : s.fq.tail = rest := by rw [hq]; rfl
    rw [← hmode, ← htail, hx, ← hb]
    rfl

/-- Settles O44. -/
theorem floatingStores : Obligations.FloatingStores := by
  unfold Obligations.FloatingStores
  intro s t rd rs1 o p hef hm data address image even odd
  refine ⟨fun h hi => ?stf, fun h he hi => ?stdf, fun hq => ⟨fun h => ?stfsr, fun h hs hp e rest hfq => ?stdfq,
    fun ha hs hn => ?sequence⟩⟩
  case stf => exact store_puts h (congrArg Res.out (fpStore_ready hef hm h.aligned hi _))
  case stdf =>
    have hev : even = evenReg rd := (evenReg_eq rd).symm
    have hod : odd = oddReg rd := (oddReg_eq rd).symm
    rw [hev, hod] at hi ⊢
    have hx : exec (.stdf rd rs1 o) s =
        (placeWriteTwo p t (decodedAsi t.cfg data) address (freg s (evenReg rd)) (freg s (oddReg rd)) advance).out :=
      congrArg Res.out ((fpStoreDouble_ready hef hm h.aligned he hi _).trans (storeTwo_storeAt h _ _ advance))
    rw [hx]
    exact puts_two (advance_finishes h.barrier) p data address _ _
  case stfsr =>
    have hfsr : t.fsr = s.fsr := by rw [h.frame.rest]
    have hx : exec (.stfsr rs1 o) s =
        ((placeWrite p t .first (decodedAsi t.cfg data) address (fsrWord s) .word).bind fun _ x =>
          .done (advance { x with fsr := { x.fsr with ftt := 0#3 } })).out := by
      have hw := memWrite_storeAt h (fsrWord s)
      rw [← hw]
      exact congrArg Res.out (fpStore_ready hef hm h.aligned (independent_of_empty hq _) _)
    rw [hx, ← hfsr, ← fsrWord_eq]
    exact puts_one (clearFtt_finishes h.barrier) p (by decide) data address _ .word
  case stdfq =>
    have htq : t.fq = e :: rest := by rw [h.frame.rest]; exact hfq
    have hmode : t.fpuMode = s.fpuMode := by rw [h.frame.rest]
    have hx : exec (.stdfq rs1 o) s =
        (placeWriteTwo p t (decodedAsi t.cfg data) address e.address e.instruction fun x => advance (popFq x)).out := by
      refine congrArg Res.out ((privileged_supervisor _ hs).trans
        ((fpStore_ready hef hm h.aligned (independent_of_empty hq _) _).trans ?_))
      simp only [hp, hfq]
      exact storeTwo_storeAt h _ _ fun x => advance (popFq x)
    rw [hx, ← hmode]
    exact puts_two (popFq_finishes h.barrier htq) p data address _ _
  case sequence =>
    have hx : exec (.stdfq rs1 o) s = (match s.cfg.fqPresent, s.fq with
        | true, e :: _ => storeTwo s data address e.address e.instruction fun s => .done (advance (popFq s))
        | _, _ => .trap (.fpException (fpRecord 4#3)) s : Res).out :=
      congrArg Res.out ((privileged_supervisor _ hs).trans
        (fpStore_ready (z := .dword) hef hm ha (independent_of_empty hq _) _))
    rw [hx]
    rcases hn with hn | hn
    · simp only [hn]
      rfl
    · simp only [hn]
      cases s.cfg.fqPresent <;> rfl

/-! ### The state of the FPU before an instruction -/

/-- The op3 of an FPop in its word. -/
theorem isFpopWord_unpack (w : Word) :
    isFpopWord w = match unpack w with
      | .fmt3 false _ op3 _ _ => op3 == 0x34#6 || op3 == 0x35#6
      | _ => false := by
  unfold isFpopWord unpack
  generalize w.extractLsb' 30 2 = op
  generalize w.extractLsb' 19 6 = op3
  have ho : op = 0#2 ∨ op = 1#2 ∨ op = 2#2 ∨ op = 3#2 := by revert op; decide
  rcases ho with rfl | rfl | rfl | rfl <;> simp

theorem isFpopWord_pack (f : Format) :
    isFpopWord (pack f) = match f with
      | .fmt3 false _ op3 _ _ => op3 == 0x34#6 || op3 == 0x35#6
      | _ => false := by
  rw [isFpopWord_unpack, unpack_pack]

/-- The words of no instruction are none of the FPU (30_encoding.md R236 to R238). -/
theorem unassigned_not_fp :
    (∀ op2 : BitVec 3, (Instr.unassignedOp2 op2).wellFormed = true → op2 ≠ 6#3) ∧
      ∀ op3 : BitVec 6, (Instr.unassignedOp3Arith op3).wellFormed = true → op3 ≠ 0x34#6 ∧ op3 ≠ 0x35#6 := by
  decide

/-- What an FBfcc and an FPop do, once the FPU accepts them. -/
theorem exec_operates {i : Instr} (hw : i.wellFormed = true) (h : isFbfcc i = true ∨ isFpopWord (encode i) = true)
    {s : State} (hr : (∃ rd rs1 opf rs2, i = .fpop1Unassigned rd rs1 opf rs2 ∨ i = .fpop2Unassigned rd rs1 opf rs2) →
      s.cfg.reservedOpfIllegal = false) :
    ∃ k, exec i s = (fpEnabled s (fpProvokes s (fpInSequence s k))).out := by
  have hu (fpop2 : Bool) (hr : s.cfg.reservedOpfIllegal = false) :
      ∃ k, (fpUnassigned s fpop2).out = (fpEnabled s (fpProvokes s (fpInSequence s k))).out :=
    ⟨_, congrArg Res.out (if_neg (by simp [hr]))⟩
  rw [encode, isFpopWord_pack] at h
  cases i
  case fbn | fbne | fblg | fbul | fbl | fbug | fbg | fbu | fba | fbe | fbue | fbge | fbuge | fble | fbule | fbo =>
    exact ⟨_, rfl⟩
  case fitos | fitod | fitoq | fstoi | fdtoi | fqtoi | fstod | fstoq | fdtos | fdtoq | fqtos | fqtod | fmovs | fnegs
      | fabss | fsqrts | fsqrtd | fsqrtq | fadds | faddd | faddq | fsubs | fsubd | fsubq | fmuls | fmuld | fmulq
      | fsmuld | fdmulq | fdivs | fdivd | fdivq | fcmps | fcmpd | fcmpq | fcmpes | fcmped | fcmpeq =>
    exact ⟨_, rfl⟩
  case fpop1Unassigned => exact hu false (hr ⟨_, _, _, _, .inl rfl⟩)
  case fpop2Unassigned => exact hu true (hr ⟨_, _, _, _, .inr rfl⟩)
  case unassignedOp2 op2 => exact absurd h (by simpa [isFbfcc, encodeFormat] using unassigned_not_fp.1 op2 hw)
  case unassignedOp3Arith op3 => exact absurd h (by simpa [isFbfcc, encodeFormat] using unassigned_not_fp.2 op3 hw)
  all_goals exact absurd h (by simp [isFbfcc, encodeFormat])

theorem fpProvokes_pending {s : State} {r : FpRecord} (k : Res) (h : s.fpuMode = .pending r) :
    fpProvokes s k = .trap (.fpException r) s := by
  unfold fpProvokes
  rw [h]

theorem fpInSequence_exception {s : State} (k : Res) (h : s.fpuMode = .exception) :
    fpInSequence s k = .done (advance { s with fpuMode := .pending ⟨4#3, none⟩ }) := by
  unfold fpInSequence
  rw [h]
  rfl

/-- The checks in front of the state of the FPU. -/
theorem fpChecked {s : State} {a : Word} {z : Size} (hef : efOn s = true) (ha : a.toNat % z.alignment = 0) (k : Res) :
    fpEnabled s (aligned s a z (fpProvokes s k)) = fpProvokes s k := by
  rw [fpEnabled_on _ hef, aligned_of_mod _ ha]

theorem evenFreg_odd {s : State} {rd : RegNum} (k : Res) (hm : ∀ r, s.fpuMode ≠ .pending r) (hq : s.fpuQueue = [])
    (ho : s.cfg.misalignedFregTraps = true ∧ rd.toNat % 2 = 1) :
    evenFreg s rd k = .trap (.fpException ⟨6#3, none⟩) s := by
  have h0 : rd.getLsbD 0 = true := by simpa [BitVec.getLsbD, Nat.testBit_zero] using ho.2
  refine (if_pos (by rw [ho.1, h0]; rfl)).trans ?_
  exact fpSettled_independent s _ _ hm (independent_of_empty hq _)

/-- Settles O45. -/
theorem floatingSequence : Obligations.FloatingSequence := by
  unfold Obligations.FloatingSequence
  intro s rd rs1 o hef a loads stores operates odd
  have word (ha : a % 4 = 0) (k : Res) := fpChecked (z := .word) (a := effectiveAddress s rs1 o) hef ha k
  have dword (ha : a % 8 = 0) (k : Res) := fpChecked (z := .dword) (a := effectiveAddress s rs1 o) hef ha k
  refine ⟨fun r hm i hi => ?pending, fun hm i hi => ?exception, fun hm hq ho ha => ?_⟩
  case pending =>
    have provoked {i : Instr} {r' k : Res} (hx : exec i s = r'.out) (hr : r' = fpProvokes s k) :
        Traps (exec i s) (.fpException r) s :=
      hx.trans (congrArg Res.out (hr.trans (fpProvokes_pending k hm)))
    rcases hi with (⟨rfl | rfl, ha⟩ | ⟨rfl, ha⟩) | (⟨rfl | rfl, ha⟩ | ⟨rfl, ha⟩ | ⟨rfl, ha, hs⟩) | ⟨hw, ho, hr⟩
    · exact provoked rfl (word ha _)
    · exact provoked rfl (word ha _)
    · exact provoked rfl (dword ha _)
    · exact provoked rfl (word ha _)
    · exact provoked rfl (word ha _)
    · exact provoked rfl (dword ha _)
    · exact provoked rfl ((privileged_supervisor _ hs).trans (dword ha _))
    · obtain ⟨k, hx⟩ := exec_operates hw ho hr
      exact provoked hx (fpEnabled_on _ hef)
  case exception =>
    have sequence {i : Instr} {r' k : Res} (hx : exec i s = r'.out) (hr : r' = fpProvokes s (fpInSequence s k)) :
        exec i s = .next { s with pc := s.npc, npc := s.npc + 4#32, fpuMode := .pending ⟨4#3, none⟩ } := by
      rw [hx, hr, fpProvokes_of_mode _ (by simp [hm]), fpInSequence_exception k hm]
      rfl
    rcases hi with ⟨⟨rfl | rfl, ha⟩ | ⟨rfl, ha⟩, hn⟩ | ⟨hw, ho, hr⟩
    · exact sequence rfl (word ha _)
    · exact sequence rfl (word ha _)
    · have he : s.cfg.misalignedFregTraps = false ∨ rd.toNat % 2 = 0 := by
        simp only [odd, true_and, not_and_or, Bool.not_eq_true] at hn
        exact hn.imp id fun h => (Nat.mod_two_eq_zero_or_one _).resolve_right h
      exact sequence rfl ((dword ha _).trans (congrArg (fpProvokes s) (evenFreg_even _ he)))
    · obtain ⟨k, hx⟩ := exec_operates hw ho hr
      exact sequence hx (fpEnabled_on _ hef)
  · have invalid {i : Instr} {k : Res} (hx : exec i s =
        (fpEnabled s (aligned s (effectiveAddress s rs1 o) .dword (fpProvokes s (evenFreg s rd k)))).out) :
        Traps (exec i s) (.fpException ⟨6#3, none⟩) s := by
      rw [hx, dword ha, fpProvokes_of_mode _ hm, evenFreg_odd k hm hq ho]
      rfl
    simp only [List.forall_mem_cons, List.not_mem_nil, false_imp_iff, implies_true, and_true]
    exact ⟨invalid rfl, invalid rfl⟩

end Sys2Proof.Machine
end

section
/-! The coprocessor's instructions (45_cpop.md; 40_load_store.md sections 4 and 7) by the place of their accesses. -/

namespace Sys2Proof.Machine

/-- The reads of LDDC. -/
theorem readPair_at {s t : State} {p : Place} {asi : BitVec 8} {a : Word} (h : LoadAt s p asi a .dword t) :
    ∃ r v0 v1 w u, DeliversPair p t asi v0 v1 u ∧ route s .first asi a false = .ok r t ∧
      readAt t .first r a .dword = .ok v0 w ∧ readAt w .second r.next (a + 4#32) .dword = .ok v1 u := by
  obtain ⟨r, hr, hp⟩ := route_loadAt h
  have hm : t.now.machineCheck = none := by rw [h.frame.now]; exact h.quiet
  obtain ⟨v0, w, hw, hd0⟩ := readAt_delivers (k := .first) (z := .dword) hm (by decide) (by rw [h.frame.cfg]) hp
  have hwrest := hd0.rest
  have hp2 := hp.next (u := w) (by rw [hwrest]) (by rw [hwrest]) h.aligned
  obtain ⟨v1, u, hu, hd1⟩ := readAt_delivers (k := .second) (z := .dword) (by rw [hwrest]; exact hm) (by decide)
    (by rw [hwrest, h.frame.cfg]) hp2
  exact ⟨r, v0, v1, w, u, ⟨w, hd0, hd1⟩, hr, hw, hu⟩

/-- A change of the coprocessor alone behind the stores. -/
theorem advance_cp_finishes {s : State} (hb : s.storeBarrierPending = false) {g : State → State} {cp : CpState}
    (hg : ∀ x, Stored s x → g x = { x with cp := cp }) : Finishes (fun x => advance (g x)) s { s with cp := cp } [] where
  mem := rfl
  staleWords := rfl
  freeDraws := rfl
  ioTrace := rfl
  barrier := hb
  regs x hx := by
    rw [hg x hx, hx]
    exact (RegsWritten.refl s _).congr rfl rfl rfl
  rest x hx := by
    rw [hg x hx, hx, ← hb]
    rfl

/-- A coprocessor instruction takes an outstanding exception once its checks of unit and alignment pass. -/
theorem cp_provokes {s : State} {a : Word} {z : Size} (hec : ecOn s = true) (ha : a.toNat % z.alignment = 0)
    (hp : s.cpPending = true) (q : CpRequest) (k : Res) :
    cpEnabled s (aligned s a z (cpAccepted s q k)) = .trap .cpException s := by
  rw [cpEnabled_on _ hec, aligned_of_mod _ ha, cpAccepted_pending _ _ hp]

theorem cp_excepts {s : State} {a : Word} {z : Size} (hec : ecOn s = true) (ha : a.toNat % z.alignment = 0)
    (hp : s.cpPending = false) (hx : s.now.cpException = true) (q : CpRequest) (k : Res) :
    cpEnabled s (aligned s a z (cpAccepted s q k)) = .trap .cpException (cpDoes s q) := by
  rw [cpEnabled_on _ hec, aligned_of_mod _ ha, cpAccepted_exception _ _ hp hx]

theorem cpDefers_some {s : State} {cpop : Cpop} (h : s.now.cpDeferred = some cpop)
    (hq : s.cfg.cpPresent = true ∧ s.cfg.cqPresent = true) :
    cpDefers s = { s with
      cp := if cpop = .op1 then { Config.cpNext (.defer cpop) s.cp with cc := s.cp.cc } else
        Config.cpNext (.defer cpop) s.cp
      cpPending := true } := by
  unfold cpDefers
  rw [h]
  simp only [hq.1, hq.2]
  cases cpop <;> rfl

theorem cpDefers_none {s : State} (h : s.now.cpDeferred = none ∨ ¬(s.cfg.cpPresent = true ∧ s.cfg.cqPresent = true)) :
    cpDefers s = s := by
  unfold cpDefers
  rcases h with h | h
  · rw [h]
  · split
    · exact if_neg (by simpa using h)
    · rfl

/-- STDCQ in supervisor mode with an aligned address. -/
theorem exec_stdcq {s : State} {rs1 : RegNum} {o : Operand2} (hec : ecOn s = true) (hs : s.psr.s = true)
    (ha : (effectiveAddress s rs1 o).toNat % 8 = 0) (k : Res)
    (hk : (match s.cfg.cqPresent, s.cp.cq with
      | true, e :: rest =>
        cpAccepted s .storeQueue
          (storeTwo s (dataAsi s) (effectiveAddress s rs1 o) e.1 e.2 fun s =>
            .done (advance { cpDoes s .storeQueue with cp := { (cpDoes s .storeQueue).cp with cq := rest } }))
      | _, _ => .trap .cpException s) = k) : exec (.stdcq rs1 o) s = (cpProvokes s k).out := by
  rw [← hk]
  exact congrArg Res.out ((privileged_supervisor _ hs).trans ((cpEnabled_on _ hec).trans (aligned_of_mod _ ha)))

/-- Settles O54. -/
theorem coprocessorResults : Obligations.CoprocessorResults := by
  unfold Obligations.CoprocessorResults
  refine ⟨fun s => ⟨fun cpop h hq => cpDefers_some h hq, cpDefers_none⟩, ?_⟩
  intro s t rd rs1 rs2 o opc p hec data address after becomes loads puts double
  refine ⟨fun hp hx => ?results, fun hp hx => ?excepts, fun hp => ?provokes, fun ha hs hn => ?empty⟩
  case results =>
    have load {i : Instr} {q : CpRequest} {f : Word → State → State} {cp : Word → CpState}
        (hi : exec i s = (cpEnabled s (aligned s address .word (cpAccepted s q
          ((memRead s .first data address .word).bind fun v s => .done (advance (f v s)))))).out)
        (hf : ∀ v u, u.cp = s.cp → f v u = { u with cp := cp v }) : loads i cp := by
      intro h
      obtain ⟨v, u, hr, hd⟩ := memRead_loadAt h
      have hcp : u.cp = s.cp := by rw [hd.rest, h.frame.rest]
      have hn : u.npc = s.npc := by rw [hd.rest, h.frame.rest]
      refine ⟨v, u, hd, ?_⟩
      show exec i s = _
      rw [hi, cp_ready hec h.aligned hp hx, hr, ← hn]
      show Res.out (.done (advance (f v u))) = _
      rw [hf v u hcp]
      rfl
    have store {i : Instr} {q : CpRequest} {v : Word} {f : State → State} {cp : CpState}
        (hi : exec i s = (cpEnabled s (aligned s address .word (cpAccepted s q
          ((memWrite s .first data address v .word).bind fun _ s => .done (advance (f s)))))).out)
        (hf : ∀ x, x.cp = s.cp → f x = { x with cp := cp }) : puts i .word cp [v] := by
      intro h
      have hcp : t.cp = s.cp := by rw [h.frame.rest]
      rw [hi, cp_ready hec h.aligned hp hx, memWrite_storeAt h]
      exact puts_one (advance_cp_finishes h.barrier fun x hx => hf x (by rw [hx]; exact hcp)) p (by decide) data address
        v .word
    have storeTwo {i : Instr} {v w : Word} {f : State → State} {cp : CpState}
        (hi : address.toNat % 8 = 0 →
          exec i s = (Machine.storeTwo s data address v w fun s => .done (advance (f s))).out)
        (hf : ∀ x, x.cp = s.cp → f x = { x with cp := cp }) : puts i .dword cp [v, w] := by
      intro h
      have hcp : t.cp = s.cp := by rw [h.frame.rest]
      rw [hi h.aligned, storeTwo_storeAt h v w fun x => advance (f x)]
      exact puts_two (advance_cp_finishes h.barrier fun x hx => hf x (by rw [hx]; exact hcp)) p data address v w
    have does (q : CpRequest) (x : State) (h : x.cp = s.cp) : cpDoes x q = { x with cp := cpAfter q s.cp } := by
      rw [← h]
      rfl
    refine ⟨?_, ?_, load (f := fun v u => cpDoes u (.load rd v)) rfl fun v u h => does _ u h,
      load (f := fun v u => { cpDoes u (.loadCsr v) with cp := { (cpDoes u (.loadCsr v)).cp with csr := v } }) rfl
        fun v u h => ?_, fun h => ?_,
      store (f := fun u => cpDoes u (.store rd)) rfl fun x h => does _ x h,
      store (f := fun u => { u with cp := cpAfter .storeCsr s.cp }) rfl fun x h => rfl,
      storeTwo (f := fun u => cpDoes u (.storeDouble rd)) (fun ha => ?_) fun x h => does _ x h,
      fun hs hc e rest hq => storeTwo
        (f := fun u => { cpDoes u .storeQueue with cp := { (cpDoes u .storeQueue).cp with cq := rest } })
        (fun ha => ?_) fun x h => ?_⟩
    · exact congrArg Res.out ((cpEnabled_on _ hec).trans (cpAccepted_none _ _ hp hx))
    · exact congrArg Res.out ((cpEnabled_on _ hec).trans (cpAccepted_none _ _ hp hx))
    · rw [does _ u h]
      rfl
    · obtain ⟨r, v0, v1, w, u, hd, hr, hw, hu⟩ := readPair_at h
      have hu' : u = { t with freeDraws := u.freeDraws, ioTrace := u.ioTrace } := by
        obtain ⟨w', hd0, hd1⟩ := hd
        rw [hd1.rest, hd0.rest]
      have hcp : u.cp = s.cp := by rw [hu', h.frame.rest]
      have hn : u.npc = s.npc := by rw [hu', h.frame.rest]
      have he : exec (.lddc rd rs1 o) s = Res.out (.done (advance (cpDoes u (.loadDouble rd v0 v1)))) := by
        refine congrArg Res.out ((cp_ready hec h.aligned hp hx _ _).trans ?_)
        have hr' : route s .first (dataAsi s) (effectiveAddress s rs1 o) false = .ok r t := hr
        have hw' : readAt t .first r (effectiveAddress s rs1 o) .dword = .ok v0 w := hw
        have hu' : readAt w .second r.next (effectiveAddress s rs1 o + 4#32) .dword = .ok v1 u := hu
        simp only [hr', MemRes.bind, hw', hu']
      refine ⟨v0, v1, u, hd, ?_⟩
      show exec (.lddc rd rs1 o) s = _
      rw [he, does _ u hcp, ← hn]
      rfl
    · exact congrArg Res.out (cp_ready hec ha hp hx _ _)
    · rw [exec_stdcq hec hs ha _ rfl, cpProvokes_none _ hp]
      simp only [hc, hq]
      exact congrArg Res.out (cpAccepted_none _ _ hp hx)
    · rw [does _ x h]
      rfl
  case excepts =>
    have word {i : Instr} {q : CpRequest} {k : Res} (ha : address.toNat % 4 = 0)
        (hi : exec i s = (cpEnabled s (aligned s address .word (cpAccepted s q k))).out) :
        Traps (exec i s) .cpException (cpDoes s q) := by
      rw [hi, cp_excepts hec ha hp hx]
      rfl
    have dword {i : Instr} {q : CpRequest} {k : Res} (ha : address.toNat % 8 = 0)
        (hi : exec i s = (cpEnabled s (aligned s address .dword (cpAccepted s q k))).out) :
        Traps (exec i s) .cpException (cpDoes s q) := by
      rw [hi, cp_excepts hec ha hp hx]
      rfl
    refine ⟨?_, ?_, fun ha => ⟨word (q := .load rd 0#32) ha rfl, word (q := .loadCsr 0#32) ha rfl,
        word (q := .store rd) ha rfl, word (q := .storeCsr) ha rfl⟩,
      fun ha => ⟨dword (q := .loadDouble rd 0#32 0#32) ha rfl, dword (q := .storeDouble rd) ha rfl, fun hs hc hq => ?_⟩⟩
    · exact congrArg Res.out ((cpEnabled_on _ hec).trans (cpAccepted_exception _ _ hp hx))
    · exact congrArg Res.out ((cpEnabled_on _ hec).trans (cpAccepted_exception _ _ hp hx))
    · obtain ⟨e, rest, hq⟩ := List.exists_cons_of_ne_nil hq
      rw [exec_stdcq hec hs ha _ rfl, cpProvokes_none _ hp]
      simp only [hc, hq]
      exact congrArg Res.out (cpAccepted_exception _ _ hp hx)
  case provokes =>
    have word {i : Instr} {q : CpRequest} {k : Res} (ha : address.toNat % 4 = 0)
        (hi : exec i s = (cpEnabled s (aligned s address .word (cpAccepted s q k))).out) :
        Traps (exec i s) .cpException s := by
      rw [hi, cp_provokes hec ha hp]
      rfl
    have dword {i : Instr} {q : CpRequest} {k : Res} (ha : address.toNat % 8 = 0)
        (hi : exec i s = (cpEnabled s (aligned s address .dword (cpAccepted s q k))).out) :
        Traps (exec i s) .cpException s := by
      rw [hi, cp_provokes hec ha hp]
      rfl
    simp only [List.forall_mem_cons, List.not_mem_nil, false_imp_iff, implies_true, and_true]
    refine ⟨⟨?_, ?_⟩, fun ha => ⟨word ha rfl, word ha rfl, word ha rfl, word ha rfl⟩,
      fun ha => ⟨⟨dword ha rfl, dword ha rfl⟩, fun hs => ?_⟩⟩
    · exact congrArg Res.out ((cpEnabled_on _ hec).trans (cpAccepted_pending _ _ hp))
    · exact congrArg Res.out ((cpEnabled_on _ hec).trans (cpAccepted_pending _ _ hp))
    · rw [exec_stdcq hec hs ha _ rfl]
      exact congrArg Res.out (if_pos hp)
  case empty =>
    have hk : cpProvokes s (.trap .cpException s) = .trap .cpException s := ite_self _
    rw [exec_stdcq (k := .trap .cpException s) hec hs ha, hk]
    · rfl
    · rcases hn with hn | hn
      · simp only [hn]
      · simp only [hn]
        cases s.cfg.cqPresent <;> rfl

end Sys2Proof.Machine
end

section
/-! The FPops: the f registers they name, how one ends, what the ready FPU makes of it, and the FPU's work on
a queue of them (44_fpop.md section 1; 10_state.md R75, R76). -/

namespace Sys2Proof.Machine

/-! ### The f registers of a format (44_fpop.md R602) -/

theorem evenReg_toNat : ∀ n : RegNum, (evenReg n).toNat = n.toNat / 2 * 2 := by decide

theorem oddReg_toNat : ∀ n : RegNum, (oddReg n).toNat = n.toNat / 2 * 2 + 1 := by decide

theorem quadReg_toNat : ∀ n k : RegNum, k.toNat < 4 → (quadReg n k).toNat = n.toNat / 4 * 4 + k.toNat := by decide

theorem quadReg_distinct (n : RegNum) :
    quadReg n 0#5 ≠ quadReg n 1#5 ∧ quadReg n 0#5 ≠ quadReg n 2#5 ∧ quadReg n 0#5 ≠ quadReg n 3#5 ∧
      quadReg n 1#5 ≠ quadReg n 2#5 ∧ quadReg n 1#5 ≠ quadReg n 3#5 ∧ quadReg n 2#5 ≠ quadReg n 3#5 := by
  revert n
  decide

theorem misaligned_iff (f : FpFormat) (n : RegNum) :
    misaligned f n = true ↔ f = .double ∧ n.toNat % 2 = 1 ∨ f = .quad ∧ n.toNat % 4 ≠ 0 := by
  revert n
  cases f <;> decide

theorem fpBits_eq (s : State) (f : FpFormat) (n : RegNum) : fpBits s f n = fpOperand s f n := by
  cases f with
  | single => rfl
  | double => exact append_toNat ..
  | quad =>
    simp only [fpBits, fregQuad, fpOperand, append_toNat]
    omega

/-- A result in its registers, and nothing else. -/
theorem setFpBits_written (s : State) (f : FpFormat) (n : RegNum) (bits : Nat) :
    FregsWritten s (setFpBits s f n bits) (fpWords f n bits) ∧
      setFpBits s f n bits = { s with fregs := (setFpBits s f n bits).fregs } := by
  have cut (w start : Nat) (h : start + 32 ≤ w) :
      (BitVec.ofNat w bits).extractLsb' start 32 = BitVec.ofNat 32 (bits / 2 ^ start) := by
    apply BitVec.eq_of_toNat_eq
    rw [BitVec.extractLsb'_toNat, BitVec.toNat_ofNat, BitVec.toNat_ofNat, Nat.shiftRight_eq_div_pow]
    rw [← Nat.add_sub_of_le h, Nat.add_assoc, Nat.pow_add, Nat.mod_mul_right_div_self, Nat.pow_add, Nat.mod_mul_right_mod]
  have base := FregsWritten.refl s
  cases f with
  | single => exact ⟨base.snoc n (BitVec.ofNat 32 bits) (by simp), rfl⟩
  | double =>
    have h : FregsWritten s (setFpBits s .double n bits)
        [(evenReg n, (BitVec.ofNat 64 bits).extractLsb' 32 32), (oddReg n, (BitVec.ofNat 64 bits).extractLsb' 0 32)] :=
      (base.snoc _ _ (by simp)).snoc _ _ (by simpa using evenReg_ne_oddReg n)
    rw [cut 64 32 (by decide), cut 64 0 (by decide), Nat.pow_zero, Nat.div_one] at h
    exact ⟨h, rfl⟩
  | quad =>
    obtain ⟨h01, h02, h03, h12, h13, h23⟩ := quadReg_distinct n
    have h : FregsWritten s (setFpBits s .quad n bits)
        [(quadReg n 0#5, (BitVec.ofNat 128 bits).extractLsb' 96 32),
          (quadReg n 1#5, (BitVec.ofNat 128 bits).extractLsb' 64 32),
          (quadReg n 2#5, (BitVec.ofNat 128 bits).extractLsb' 32 32),
          (quadReg n 3#5, (BitVec.ofNat 128 bits).extractLsb' 0 32)] :=
      (((base.snoc _ _ (by simp)).snoc _ _ (by simpa using h01)).snoc _ _ (by simpa using ⟨h02, h12⟩)).snoc _ _
        (by simpa using ⟨h03, h13, h23⟩)
    rw [cut 128 96 (by decide), cut 128 64 (by decide), cut 128 32 (by decide), cut 128 0 (by decide), Nat.pow_zero,
      Nat.div_one] at h
    exact ⟨h, rfl⟩

/-! ### How an FPop ends -/

/-- The f registers or fcc that a result reaches. -/
def fpDests (w : FpWork) (bits : Nat) : List (RegNum × Word) :=
  match w.op.formats.2.2 with
  | some g => fpWords g w.rd bits
  | none => []

def fpFcc (w : FpWork) (fcc : BitVec 2) (bits : Nat) : BitVec 2 :=
  match w.op.formats.2.2 with
  | some _ => fcc
  | none => BitVec.ofNat 2 bits

theorem fpWrite_written (s : State) (w : FpWork) (bits : Nat) :
    FregsWritten s (fpWrite s w bits) (fpDests w bits) ∧
      fpWrite s w bits = { s with
        fregs := (fpWrite s w bits).fregs, fsr := { s.fsr with fcc := fpFcc w s.fsr.fcc bits } } := by
  unfold fpWrite fpDests fpFcc
  cases w.op.formats.2.2 with
  | some g => exact setFpBits_written s g w.rd bits
  | none => exact ⟨.of_eq rfl, rfl⟩

/-- The state in which an FPop has completed, with these bits and exceptions. -/
def fpCompleted (s : State) (w : FpWork) (x : Nat × BitVec 5) : State :=
  fpWrite { s with fsr := { s.fsr with cexc := x.2, aexc := s.fsr.aexc ||| x.2, ftt := 0#3 } } w x.1

theorem fpCompleted_written (s : State) (w : FpWork) (x : Nat × BitVec 5) :
    FregsWritten s (fpCompleted s w x) (fpDests w x.1) ∧
      fpCompleted s w x = { s with
        fregs := (fpCompleted s w x).fregs
        fsr := { s.fsr with
          cexc := x.2, aexc := s.fsr.aexc ||| x.2, ftt := 0#3, fcc := fpFcc w s.fsr.fcc x.1 } } := by
  obtain ⟨hw, hr⟩ := fpWrite_written
    { s with fsr := { s.fsr with cexc := x.2, aexc := s.fsr.aexc ||| x.2, ftt := 0#3 } } w x.1
  exact ⟨hw, hr⟩

theorem FpCases.imp {s : State} {event : Option FpuEvent} {operands : List (FpFormat × RegNum)} {texc : BitVec 5}
    {raises raises' : BitVec 3 → Option (BitVec 5) → Prop} {completes completes' : Prop}
    (h : FpCases s event operands texc raises completes) (hr : ∀ ftt cexc, raises ftt cexc → raises' ftt cexc)
    (hc : completes → completes') : FpCases s event operands texc raises' completes' := by
  obtain ⟨hmis, hok⟩ := h
  refine ⟨fun ha => hr _ _ (hmis ha), fun ha => ?_⟩
  obtain ⟨hunfinished, herror, hnone⟩ := hok ha
  refine ⟨fun he => hr _ _ (hunfinished he), fun he => hr _ _ (herror he), fun he => ?_⟩
  obtain ⟨hexc, hdone⟩ := hnone he
  exact ⟨fun hx => hr _ _ (hexc hx), fun hx => hc (hdone hx)⟩

theorem misaligned_check (s : State) (xs : List (FpFormat × RegNum)) :
    (s.cfg.misalignedFregTraps && xs.any fun x => misaligned x.1 x.2) = true ↔ ¬FregsAligned s xs := by
  unfold FregsAligned
  simp

/-- An FPop that the FPU does not implement, and a word of no FPop (44_fpop.md R603). -/
theorem fpExecute_unimplemented {s : State} {w : FpWork} (h : w.unimplemented = true) :
    fpExecute s w = .raises ⟨3#3, none⟩ := if_pos h

/-- What the others come to (44_fpop.md R602, R604). -/
theorem fpExecute_cases {s : State} {w : FpWork} (h : w.unimplemented = false) :
    FpCases s (fpuEvent s w.op) (w.sources ++ w.results) (fpDelivers s w).2
      (fun ftt cexc => fpExecute s w = .raises ⟨ftt, cexc⟩)
      (fpExecute s w = .completes (fpCompleted s w (fpDelivers s w))) := by
  have hx : fpExecute s w =
      if s.cfg.misalignedFregTraps && (w.sources ++ w.results).any (fun x => misaligned x.1 x.2) then
        .raises ⟨6#3, none⟩
      else
        match fpuEvent s w.op with
        | some .unfinished => .raises ⟨2#3, none⟩
        | some .hardwareError => .raises ⟨5#3, none⟩
        | none => fpComplete s w := if_neg (by simp [h])
  refine ⟨fun ha => ?_, fun ha => ?_⟩
  · rw [hx, if_pos ((misaligned_check ..).mpr ha)]
  · rw [if_neg fun hm => (misaligned_check ..).mp hm ha] at hx
    refine ⟨fun he => ?_, fun he => ?_, fun he => ⟨fun hm => ?_, fun hm => ?_⟩⟩
    · rw [hx, he]
    · rw [hx, he]
    · rw [hx, he]
      exact if_neg hm
    · rw [hx, he]
      exact if_pos hm

/-! ### What an FPop delivers -/

theorem nonstandard_iff (s : State) (op : FpOp) :
    nonstandard s op = true ↔ NonstandardMode s ∧ op.arithmetic = true := by
  simp [nonstandard, NonstandardMode, and_assoc]

theorem fpDelivers_standard {s : State} {w : FpWork} (h : ¬(NonstandardMode s ∧ w.op.arithmetic = true)) :
    fpDelivers s w =
      ((fpStandard (rounding s) w.op (fpOperandBits s w.op.formats.1 w.rs1)
          (fpOperandBits s w.op.formats.2.1 w.rs2)).bits,
        (fpStandard (rounding s) w.op (fpOperandBits s w.op.formats.1 w.rs1)
          (fpOperandBits s w.op.formats.2.1 w.rs2)).flags.bits) :=
  if_neg ((nonstandard_iff s w.op).not.mpr h)

theorem fpDelivers_nonstandard {s : State} {w : FpWork} (h : NonstandardMode s) (ha : w.op.arithmetic = true) :
    fpDelivers s w = Config.nonstandardResult w.entry.instruction (fpOperandBits s w.op.formats.1 w.rs1)
      (fpOperandBits s w.op.formats.2.1 w.rs2) :=
  if_pos ((nonstandard_iff s w.op).mpr ⟨h, ha⟩)

/-! ### What the ready FPU makes of an FPop -/

/-- The count of the fcc hazard behind an FPop. -/
def windowBehind (s : State) (op : FpOp) : Nat := if op.fpop2 then max s.fccWindow 2 else s.fccWindow

theorem fpHazard_eq (s : State) (op : FpOp) : fpHazard s op = { s with fccWindow := windowBehind s op } := by
  unfold fpHazard windowBehind
  split <;> rfl

theorem fpop_ready {s : State} (hr : FpuReady s) (op : FpOp) (rd rs1 rs2 : RegNum) :
    fpop s op rd rs1 rs2 =
      fpThen op (if s.cfg.fqPresent then fpTakesOn s (fpWork s op rd rs1 rs2)
        else fpAtOnce s (fpWork s op rd rs1 rs2)) := by
  obtain ⟨hef, hm⟩ := hr
  rw [fpop, fpEnabled_on _ hef, fpProvokes_execute _ hm, fpInSequence_execute _ hm]

/-- With a queue the FPU takes the FPop on. -/
theorem fpop_takenOn {s : State} {i : Instr} {op : FpOp} {rd rs1 rs2 : RegNum} (hr : FpuReady s)
    (hq : s.cfg.fqPresent = true) (hi : exec i s = (fpop s op rd rs1 rs2).out) :
    FpTakenOn (exec i s) s op rd rs1 rs2 (windowBehind s op) := by
  have hf := (fpEndWork_frame (fpSurplus s) s).rest
  rw [hi, fpop_ready hr, if_pos hq, fpTakesOn]
  refine ⟨fun (hm : (fpEndWork (fpSurplus s) s).fpuMode = _) => ?_,
    fun r (hm : (fpEndWork (fpSurplus s) s).fpuMode = _) => ?_⟩
  · have hn : (fpEndWork (fpSurplus s) s).npc = s.npc := by rw [hf]
    have hw : windowBehind (fpEndWork (fpSurplus s) s) op = windowBehind s op := by
      rw [hf]
      rfl
    rw [fpProvokes_execute _ hm]
    show Host.Outcome.next (fpHazard _ op) = _
    rw [fpHazard_eq, ← hn, ← hw]
    rfl
  · rw [fpProvokes_pending _ hm]
    rfl

theorem fpop_atOnce {s : State} {op : FpOp} {rd rs1 rs2 : RegNum} (hr : FpuReady s) (hq : s.cfg.fqPresent = false) :
    fpop s op rd rs1 rs2 = fpThen op (fpAtOnce s (fpWork s op rd rs1 rs2)) := by
  rw [fpop_ready hr, if_neg (by simp [hq])]

section
variable {s : State} {i : Instr} {op : FpOp} {rd rs1 rs2 : RegNum} (hr : FpuReady s) (hq : s.cfg.fqPresent = false)
  (hi : exec i s = (fpop s op rd rs1 rs2).out)
include hr hq hi

theorem fpop_raises {r : FpRecord} (h : fpExecute s (fpWork s op rd rs1 rs2) = .raises r) :
    Traps (exec i s) (.fpException r) s := by
  rw [hi, fpop_atOnce hr hq, fpAtOnce, h]
  rfl

theorem fpop_completes {x : Nat × BitVec 5}
    (h : fpExecute s (fpWork s op rd rs1 rs2) = .completes (fpCompleted s (fpWork s op rd rs1 rs2) x)) :
    FpCompletes (exec i s) s (fpDests (fpWork s op rd rs1 rs2) x.1) x.2
      (fpFcc (fpWork s op rd rs1 rs2) s.fsr.fcc x.1) (windowBehind s op) := by
  obtain ⟨hf, ht⟩ := fpCompleted_written s (fpWork s op rd rs1 rs2) x
  rw [hi, fpop_atOnce hr hq, fpAtOnce, h]
  generalize fpCompleted s (fpWork s op rd rs1 rs2) x = t at hf ht
  have hx : fpThen op (.done (advance t)) = .done { advance t with fccWindow := windowBehind s op } := by
    show Res.done (fpHazard (advance t) op) = _
    rw [fpHazard_eq]
    generalize t.fregs = g at ht
    rw [ht]
    rfl
  refine ⟨{ advance t with fccWindow := windowBehind s op }, congrArg Res.out hx, hf.congr rfl, fun a => ?_, ?_⟩
  · show t.mem.read8 a = _
    rw [ht]
  · generalize hg : t.fregs = g at ht
    rw [ht]
    rfl

end

/-- What an arithmetic FPop or a comparison comes to on the ready FPU. -/
theorem fpop_outcome {s : State} {i : Instr} {op : FpOp} {rd rs1 rs2 : RegNum} (hr : FpuReady s)
    (hi : exec i s = (fpop s op rd rs1 rs2).out) (ha : op.arithmetic = true) :
    let w := fpWork s op rd rs1 rs2
    let a := fpOperandBits s op.formats.1 rs1
    let b := fpOperandBits s op.formats.2.1 rs2
    FpOutcome (exec i s) s op rd rs1 rs2 (w.sources ++ w.results) a b
      ((fpStandard (rounding s) op a b).bits, (fpStandard (rounding s) op a b).flags.bits)
      (fun bits => (fpDests w bits, fpFcc w s.fsr.fcc bits)) (windowBehind s op) := by
  intro w a b
  refine ⟨fun hq => fpop_takenOn hr hq hi, fun hq => ?_⟩
  have hcheck : w.unimplemented = unimplemented s.cfg s.instruction := by
    cases op <;> first | exact (Bool.or_false _).trans (Bool.not_not _) | cases ha
  have hevent : fpuEvent s op = s.now.fpu := if_pos ha
  refine ⟨fun hu => ?_, fun hu => ?_⟩
  · exact fpop_raises hr hq hi (fpExecute_unimplemented (hcheck.trans hu))
  · have hcases := fpExecute_cases (s := s) (hcheck.trans hu)
    have outcome {x : Nat × BitVec 5} (hx : fpDelivers s w = x) :
        FpCases s s.now.fpu (w.sources ++ w.results) x.2
          (fun ftt cexc => Traps (exec i s) (.fpException ⟨ftt, cexc⟩) s)
          (FpCompletes (exec i s) s (fpDests w x.1) x.2 (fpFcc w s.fsr.fcc x.1) (windowBehind s op)) := by
      rw [hx] at hcases
      rw [← hevent]
      exact hcases.imp (fun ftt cexc h => fpop_raises hr hq hi h) fun h => fpop_completes hr hq hi h
    exact ⟨fun hn => outcome (fpDelivers_standard fun h => hn h.1), fun hn => outcome (fpDelivers_nonstandard hn ha)⟩

/-! ### The statements -/

theorem toggle_sign (v : Word) : (BitVec.ofNat 32 v.toNat ^^^ 0x80000000#32).toNat = (v ^^^ 0x80000000#32).toNat := by
  rw [BitVec.ofNat_toNat, BitVec.setWidth_eq]

/-- The sign bit cleared. -/
theorem clear_sign (v : Word) : (v &&& 0x7FFFFFFF#32).toNat = v.toNat % 2 ^ 31 := by
  rw [BitVec.toNat_and]
  exact Nat.and_two_pow_sub_one_eq_mod v.toNat 31

/-- Settles O48. -/
theorem floatingMovesAndUnassigned : Obligations.FloatingMovesAndUnassigned := by
  unfold Obligations.FloatingMovesAndUnassigned
  intro s rd rs1 rs2 opf v moves raises
  have move {i : Instr} {op : FpOp} {w : Word} (hr : FpuReady s) (hi : exec i s = (fpop s op rd 0#5 rs2).out)
      (hop : op = .move ∨ op = .negate ∨ op = .absolute)
      (hv : (fpStandard (rounding s) op 0 v.toNat).bits = w.toNat) : moves i op w := by
    have hformats : op.formats = (none, some .single, some .single) := by rcases hop with rfl | rfl | rfl <;> rfl
    have hmoves : op.arithmetic = false ∧ op.fpop2 = false := by rcases hop with rfl | rfl | rfl <;> exact ⟨rfl, rfl⟩
    have hflags : (fpStandard (rounding s) op 0 v.toNat).flags = {} := by rcases hop with rfl | rfl | rfl <;> rfl
    have hwin : windowBehind s op = s.fccWindow := if_neg (by simp [hmoves.2])
    have hcheck : (fpWork s op rd 0#5 rs2).unimplemented = unimplemented s.cfg s.instruction := by
      rcases hop with rfl | rfl | rfl <;> exact (Bool.or_false _).trans (Bool.not_not _)
    have hx : fpDelivers s (fpWork s op rd 0#5 rs2) = (w.toNat, 0#5) := by
      have hd := fpDelivers_standard (s := s) (w := fpWork s op rd 0#5 rs2) fun h => by
        simp [fpWork, hmoves.1] at h
      simp only [fpWork, hformats] at hd
      refine hd.trans ?_
      show ((fpStandard (rounding s) op 0 v.toNat).bits, (fpStandard (rounding s) op 0 v.toNat).flags.bits) = _
      rw [hv, hflags]
      rfl
    have hdests : fpDests (fpWork s op rd 0#5 rs2) w.toNat = [(rd, w)] := by
      simp [fpDests, fpWork, hformats, fpWords]
    have hfcc : fpFcc (fpWork s op rd 0#5 rs2) s.fsr.fcc w.toNat = s.fsr.fcc := by
      simp [fpFcc, fpWork, hformats]
    refine ⟨fun hq => ⟨fun hu => ?_, fun hu => ?_⟩, fun hq => ?_⟩
    · obtain ⟨-, hok⟩ := fpExecute_cases (s := s) (hcheck.trans hu)
      obtain ⟨-, -, hnone⟩ := hok (.inr (by simp [FpWork.sources, FpWork.results, fpWork, operandOf, hformats, misaligned]))
      obtain ⟨-, hdone⟩ := hnone (if_neg (by simp [fpWork, hmoves.1]))
      rw [hx] at hdone
      have hc := fpop_completes hr hq hi (hdone (BitVec.zero_and))
      rwa [hdests, hfcc, hwin] at hc
    · exact fpop_raises hr hq hi (fpExecute_unimplemented (hcheck.trans hu))
    · have h := fpop_takenOn hr hq hi
      rwa [hwin] at h
  have raise {i : Instr} {fpop2 : Bool} {window : Nat} (hi : exec i s = (fpUnassigned s fpop2).out)
      (hw : windowBehind s (.unassigned fpop2) = window) : raises i fpop2 window := by
    refine ⟨fun hc => hi.trans (congrArg Res.out (if_pos hc)), fun hc hr => ?_⟩
    have hf : exec i s = (fpop s (.unassigned fpop2) 0#5 0#5 0#5).out :=
      hi.trans (congrArg Res.out (if_neg (by simp [hc])))
    refine ⟨fun hq => ?_, fun hq => hw ▸ fpop_takenOn hr hq hf⟩
    exact fpop_raises hr hq hf (fpExecute_unimplemented (Bool.or_true _))
  refine ⟨fun hr => ⟨move hr rfl (.inl rfl) rfl, move hr rfl (.inr (.inl rfl)) (toggle_sign v),
    move hr rfl (.inr (.inr rfl)) ?_⟩, raise rfl rfl, raise rfl rfl⟩
  have hlt : v.toNat % 2 ^ 31 < 2 ^ 32 := (Nat.mod_lt _ (by decide)).trans (by decide)
  show (BitVec.ofNat 32 v.toNat &&& 0x7FFFFFFF#32).toNat = (BitVec.ofNat 32 (v.toNat % 2 ^ 31)).toNat
  rw [BitVec.ofNat_toNat, BitVec.setWidth_eq, clear_sign, BitVec.toNat_ofNat, Nat.mod_eq_of_lt hlt]

/-- The most significant bit that is set (44_fpop.md R604). -/
theorem highestBit_eq (x : BitVec 5) (k : Nat) (h : x.getLsbD k = true) (ha : ∀ j, k < j → x.getLsbD j = false) :
    highestBit x = BitVec.ofNat 5 (2 ^ k) := by
  have hk : k < 5 := BitVec.lt_of_getLsbD h
  have hclear (j : Nat) (hj : k < j) : ¬x.getLsbD j = true := by simp [ha j hj]
  unfold highestBit
  interval_cases k
  · rw [if_neg (hclear 4 (by omega)), if_neg (hclear 3 (by omega)), if_neg (hclear 2 (by omega)),
      if_neg (hclear 1 (by omega)), if_pos h]
    rfl
  · rw [if_neg (hclear 4 (by omega)), if_neg (hclear 3 (by omega)), if_neg (hclear 2 (by omega)), if_pos h]
    rfl
  · rw [if_neg (hclear 4 (by omega)), if_neg (hclear 3 (by omega)), if_pos h]
    rfl
  · rw [if_neg (hclear 4 (by omega)), if_pos h]
    rfl
  · rw [if_pos h]
    rfl

/-- Settles O49. -/
theorem floatingArithmetic : Obligations.FloatingArithmetic := by
  unfold Obligations.FloatingArithmetic
  refine ⟨highestBit_eq, fun f n => ⟨misaligned_iff f n, evenReg_toNat n, oddReg_toNat n, quadReg_toNat n⟩, ?_⟩
  intro s rd rs1 rs2 r unary binary int hr
  have one {i : Instr} {op : FpOp} {f g : FpFormat} {value : Nat → FpResult}
      (hi : exec i s = (fpop s op rd 0#5 rs2).out) (ha : op.arithmetic = true) (hp : op.fpop2 = false)
      (hf : op.formats = (none, some f, some g)) (hv : ∀ b, fpStandard r op 0 b = value b) :
      unary i op f g value := by
    have h := fpop_outcome hr hi ha
    have hwin : windowBehind s op = s.fccWindow := if_neg (by simp [hp])
    simp only [fpDests, fpFcc, FpWork.sources, FpWork.results, fpWork, hf, fpOperandBits, fpBits_eq, hwin] at h
    simp only [unary, ← hv]
    exact h
  have two {i : Instr} {op : FpOp} {f g : FpFormat} {value : Nat → Nat → FpResult}
      (hi : exec i s = (fpop s op rd rs1 rs2).out) (ha : op.arithmetic = true) (hp : op.fpop2 = false)
      (hf : op.formats = (some f, some f, some g)) (hv : ∀ a b, fpStandard r op a b = value a b) :
      binary i op f g value := by
    have h := fpop_outcome hr hi ha
    have hwin : windowBehind s op = s.fccWindow := if_neg (by simp [hp])
    simp only [fpDests, fpFcc, FpWork.sources, FpWork.results, fpWork, hf, fpOperandBits, fpBits_eq, hwin] at h
    simp only [binary, ← hv]
    exact h
  clear_value unary binary
  refine ⟨?_, ?_, ?_, ?_, ?_, ?_, ?_, ?_, ?_, ?_, ?_, ?_, ?_, ?_, ?_, ?_, ?_, ?_, ?_, ?_, ?_, ?_, ?_, ?_, ?_, ?_, ?_, ?_,
    ?_⟩
  iterate 15 exact one rfl rfl rfl rfl fun _ => rfl
  iterate 14 exact two rfl rfl rfl rfl fun _ _ => rfl

theorem invalid_bits (nv : Bool) : ({ nv := nv } : FpFlags).bits = if nv then 16#5 else 0#5 := by cases nv <;> rfl

end Sys2Proof.Machine
end

section
/-! The FPU's work on a queue of FPops, and the instructions that wait for it (10_state.md R75, R76; 60_exceptions.md
R702, R755). -/

namespace Sys2Proof.Machine

/-! ### One FPop ends, and several -/

theorem fpEndWork_of_completes {s t : State} {w : FpWork} {ws : List FpWork} (n : Nat) (hm : s.fpuMode = .execute)
    (hq : s.fpuQueue = w :: ws) (h : fpExecute s w = .completes t) :
    fpEndWork (n + 1) s = fpEndWork n { t with fpuQueue := ws } := by
  rw [fpEndWork, hm, hq]
  simp only [h]

theorem fpEndWork_of_raises {s : State} {w : FpWork} {ws : List FpWork} {r : FpRecord} (n : Nat)
    (hm : s.fpuMode = .execute) (hq : s.fpuQueue = w :: ws) (h : fpExecute s w = .raises r) :
    fpEndWork (n + 1) s = { s with fpuMode := .pending r } := by
  rw [fpEndWork, hm, hq]
  simp only [h]

/-- The FPU ends nothing in another state than fp_execute, or with nothing to work on. -/
theorem fpEndWork_idle (n : Nat) {s : State} (h : s.fpuMode ≠ .execute ∨ s.fpuQueue = []) : fpEndWork n s = s := by
  cases n with
  | zero => rfl
  | succ n =>
    unfold fpEndWork
    split
    · next hm hq => exact absurd hm (h.resolve_right (by simp [hq]))
    · rfl

theorem fpEndWork_add (m n : Nat) (s : State) : fpEndWork (m + n) s = fpEndWork n (fpEndWork m s) := by
  induction m generalizing s with
  | zero => rw [Nat.zero_add]; rfl
  | succ m ih =>
    by_cases hidle : s.fpuMode ≠ .execute ∨ s.fpuQueue = []
    · rw [fpEndWork_idle _ hidle, fpEndWork_idle _ hidle, fpEndWork_idle _ hidle]
    · rw [not_or, not_not] at hidle
      obtain ⟨hm, hq⟩ := hidle
      obtain ⟨w, ws, hq⟩ := List.exists_cons_of_ne_nil hq
      rw [Nat.add_right_comm]
      cases hx : fpExecute s w with
      | completes t => rw [fpEndWork_of_completes _ hm hq hx, fpEndWork_of_completes _ hm hq hx, ih]
      | raises r => rw [fpEndWork_of_raises _ hm hq hx, fpEndWork_of_raises _ hm hq hx, fpEndWork_idle n (by simp)]

/-- The FPops end in order, or an exception waits. -/
theorem fpEndWork_drops (n : Nat) {s : State} (hm : s.fpuMode = .execute) :
    (fpEndWork n s).fpuMode = .execute ∧ (fpEndWork n s).fpuQueue = s.fpuQueue.drop n ∨
      ∃ r, (fpEndWork n s).fpuMode = .pending r := by
  induction n generalizing s with
  | zero => exact .inl ⟨hm, rfl⟩
  | succ n ih =>
    cases hq : s.fpuQueue with
    | nil =>
      rw [fpEndWork_idle _ (.inr hq)]
      exact .inl ⟨hm, hq⟩
    | cons w ws =>
      cases hx : fpExecute s w with
      | completes t =>
        rw [fpEndWork_of_completes _ hm hq hx]
        have hmode : t.fpuMode = .execute := (fpExecute_mode hx).1.trans hm
        exact ih hmode
      | raises r =>
        rw [fpEndWork_of_raises _ hm hq hx]
        exact .inr ⟨r, rfl⟩

theorem upToLast_drop (p : FpWork → Bool) (ws : List FpWork) : ∀ w ∈ ws.drop (upToLast p ws), p w = false := by
  induction ws with
  | nil => simp
  | cons w ws ih =>
    unfold upToLast
    split
    · next h0 =>
      rw [h0] at ih
      split
      · exact ih
      · next hw => exact fun x hx => (List.mem_cons.mp hx).elim (fun h => h ▸ by simpa using hw) (ih x)
    · next h => simpa [h] using ih

/-- Behind the FPops an instruction depends on none is left, or an exception waits. -/
theorem fpSettle_settles (depends : FpWork → Bool) {s : State} (hm : s.fpuMode = .execute) :
    (fpSettle depends s).fpuMode = .execute ∧ Independent (fpSettle depends s) depends ∨
      ∃ r, (fpSettle depends s).fpuMode = .pending r := by
  unfold fpSettle
  refine (fpEndWork_drops _ hm).imp (fun ⟨he, hq⟩ => ⟨he, ?_⟩) id
  unfold Independent
  rw [hq]
  exact upToLast_drop depends s.fpuQueue

/-! ### The instruction that waits -/

/-- An instruction that the FPU accepts, and that waits for the FPops it depends on. -/
def Accepts (i : Instr) (depends : FpWork → Bool) (ok : State → Prop) (k : State → Res) : Prop :=
  ∀ s, ok s → efOn s = true →
    (∀ r, s.fpuMode = .pending r → exec i s = Res.out (.trap (.fpException r) s)) ∧
      (s.fpuMode = .execute → exec i s = (fpSettled s depends k).out)

/-- Such an instruction is the same one in the state in which those have ended. -/
theorem Accepts.waits {i : Instr} {depends : FpWork → Bool} {ok : State → Prop} {k : State → Res}
    (h : Accepts i depends ok k) {s : State} (hs : ok s) (hr : FpuReady s)
    (hok : ∀ u, FpFrame s u → ok u) :
    exec i s = exec i (fpSettle depends s) ∧
      ((fpSettle depends s).fpuMode = .execute ∧ Independent (fpSettle depends s) depends ∨
        ∃ r, (fpSettle depends s).fpuMode = .pending r) := by
  obtain ⟨hef, hm⟩ := hr
  have hsettles := fpSettle_settles depends hm
  have hf : FpFrame s (fpSettle depends s) := fpEndWork_frame ..
  have hefu : efOn (fpSettle depends s) = true := by
    rw [hf.rest]
    exact hef
  obtain ⟨hpend, hexec⟩ := h (fpSettle depends s) (hok _ hf) hefu
  refine ⟨?_, hsettles⟩
  rw [(h s hs hef).2 hm]
  show (fpProvokes (fpSettle depends s) (k (fpSettle depends s))).out = _
  rcases hsettles with ⟨he, hi⟩ | ⟨r, hp⟩
  · rw [hexec he, fpSettled_independent _ depends k (by simp [he]) hi, fpProvokes_execute _ he]
  · rw [hpend r hp, fpProvokes_pending _ hp]

/-- What an aligned floating-point load or store at `a` checks before the access `k a`; `load` of a load. -/
theorem accepts_access {i : Instr} {depends : FpWork → Bool} {rs1 : RegNum} {o : Operand2} {a : Word} {z : Size}
    {ok : State → Prop} {k : Word → State → Res} {load : Bool} (ha : a.toNat % z.alignment = 0)
    (hok : ∀ s, ok s → effectiveAddress s rs1 o = a)
    (hi : ∀ s, ok s → exec i s = (fpEnabled s (aligned s (effectiveAddress s rs1 o) z (fpProvokes s
      (if load then fpInSequence s (fpSettled s depends (k (effectiveAddress s rs1 o)))
        else fpSettled s depends (k (effectiveAddress s rs1 o)))))).out) : Accepts i depends ok (k a) := by
  intro s hs hef
  have he := hi s hs
  rw [hok s hs, fpEnabled_on _ hef, aligned_of_mod _ ha] at he
  refine ⟨fun r hm => ?_, fun hm => ?_⟩
  · rw [he, fpProvokes_pending _ hm]
  · rw [he, fpProvokes_execute _ hm]
    cases load with
    | true => exact congrArg Res.out (fpInSequence_execute _ hm)
    | false => rfl

/-- The FBfcc are one instruction but for their tests. -/
theorem exec_fbfcc {i : Instr} (hw : i.wellFormed = true) (h : isFbfcc i = true) :
    ∃ cond always a disp, ∀ s, exec i s = (fbfcc s cond always a disp).out := by
  cases i
  case fbn | fbne | fblg | fbul | fbl | fbug | fbg | fbu | fba | fbe | fbue | fbge | fbuge | fble | fbule | fbo =>
    exact ⟨_, _, _, _, fun s => rfl⟩
  case unassignedOp2 op2 => exact absurd h (by simpa [isFbfcc, encodeFormat] using unassigned_not_fp.1 op2 hw)
  all_goals exact absurd h (by simp [isFbfcc, encodeFormat])

theorem fbfcc_accepts {i : Instr} {cond : BitVec 4} {always a : Bool} {disp : BitVec 22}
    (h : ∀ s, exec i s = (fbfcc s cond always a disp).out) :
    Accepts i FpWork.compares (fun _ => True) fun s =>
      if s.fccWindow = 0 then .done (branch s (fccTest s.fsr.fcc cond) always a disp)
      else
        .done (branch { s with freeDraws := s.freeDraws + 1 } (fccTest (Config.hazardFcc s.freeDraws) cond) always a
          disp) := by
  refine fun s _ hef => ⟨fun r hm => ?_, fun hm => ?_⟩
  · rw [h, fbfcc, fpEnabled_on _ hef, fpProvokes_pending _ hm]
  · rw [h, fbfcc, fpEnabled_on _ hef, fpProvokes_execute _ hm, fpInSequence_execute _ hm]

/-! ### The operations of the standard -/

/-- Every FPop is arithmetic, a move, or none. -/
theorem arithmetic_or_not (op : FpOp) :
    op.arithmetic = true ∨ (op = .move ∨ op = .negate ∨ op = .absolute) ∨ ∃ fpop2, op = .unassigned fpop2 := by
  cases op <;> simp [FpOp.arithmetic]

theorem toggle_bit31 {b : Nat} (h : b < 2 ^ 32) :
    (BitVec.ofNat 32 b ^^^ 0x80000000#32).toNat = (b + 2 ^ 31) % 2 ^ 32 := by
  rw [BitVec.toNat_xor, BitVec.toNat_ofNat, Nat.mod_eq_of_lt h]
  have hmod : (b ^^^ 2 ^ 31) % 2 ^ 31 = b % 2 ^ 31 := by
    rw [Nat.xor_mod_two_pow]
    simp
  have hdiv : (b ^^^ 2 ^ 31) / 2 ^ 31 = b / 2 ^ 31 ^^^ 1 := Nat.xor_div_two_pow
  change b ^^^ 2 ^ 31 = _
  generalize b ^^^ 2 ^ 31 = c at hmod hdiv ⊢
  have hq : b / 2 ^ 31 = 0 ∨ b / 2 ^ 31 = 1 := by omega
  rcases hq with hq | hq <;> rw [hq] at hdiv <;> simp at hdiv <;> omega

theorem clear_bit31 {b : Nat} (h : b < 2 ^ 32) : (BitVec.ofNat 32 b &&& 0x7FFFFFFF#32).toNat = b % 2 ^ 31 := by
  rw [clear_sign, BitVec.toNat_ofNat, Nat.mod_eq_of_lt h]

/-- Settles O46. -/
theorem floatingQueue : Obligations.FloatingQueue := by
  unfold Obligations.FloatingQueue
  refine ⟨?ends, fun s m n => ⟨fpEndWork_add m n s, fpEndWork_idle n⟩, ?standard, ?waits⟩
  case ends =>
    intro s w ws hm hq t waits bits a b outcome x moves noFpop
    have raises {r : FpRecord} (h : fpExecute s w = .raises r) : t = { s with fpuMode := .pending r } :=
      fpEndWork_of_raises 0 hm hq h
    have hbits (f : Option FpFormat) (n : RegNum) : fpOperandBits s f n = bits f n := by
      cases f with
      | none => rfl
      | some f => exact fpBits_eq s f n
    have delivers {y : Nat × BitVec 5} {event : Option FpuEvent} (hi : w.implemented = true) (hn : ¬noFpop)
        (he : fpuEvent s w.op = event) (hy : fpDelivers s w = y) : outcome event y := by
      have hu : w.unimplemented = false := by
        unfold FpWork.unimplemented
        rw [hi]
        cases hop : w.op <;> first | rfl | exact absurd ⟨_, hop⟩ hn
      have hcases := fpExecute_cases (s := s) hu
      rw [hy, he] at hcases
      refine hcases.imp (fun ftt cexc h => raises h) fun h => ?_
      have ht : t = { fpCompleted s w y with fpuQueue := ws } := fpEndWork_of_completes 0 hm hq h
      obtain ⟨hf, hc⟩ := fpCompleted_written s w y
      rw [ht]
      refine ⟨hf.congr rfl, ?_⟩
      generalize (fpCompleted s w y) = v at hc ⊢
      generalize v.fregs = g at hc ⊢
      rw [hc]
      rfl
    have standard (h : ¬(NonstandardMode s ∧ w.op.arithmetic = true)) : fpDelivers s w = (x.bits, x.flags.bits) := by
      rw [fpDelivers_standard h, hbits, hbits]
      rfl
    have hmoves (h : moves) : w.op.arithmetic = false := by rcases h with h | h | h <;> rw [h] <;> rfl
    have harith (h : ¬moves) (hn : ¬noFpop) : w.op.arithmetic = true := by
      rcases arithmetic_or_not w.op with h' | h' | h'
      · exact h'
      · exact absurd h' h
      · exact absurd h' hn
    refine ⟨fun h => ?_, fun hi hn => ⟨fun hmv => ?_, fun hmv => ⟨fun hns => ?_, fun hns => ?_⟩⟩⟩
    · have hu : w.unimplemented = true := by
        unfold FpWork.unimplemented
        rcases h with h | ⟨fpop2, h⟩ <;> simp [h]
      exact raises (fpExecute_unimplemented hu)
    · exact delivers hi hn (if_neg (by simp [hmoves hmv])) (standard fun h => by simp [hmoves hmv] at h)
    · exact delivers hi hn (if_pos (harith hmv hn)) (standard fun h => hns h.1)
    · refine delivers hi hn (if_pos (harith hmv hn)) ?_
      rw [fpDelivers_nonstandard hns (harith hmv hn), hbits, hbits]
  case standard =>
    intro r f g q a b int
    exact ⟨rfl, rfl, rfl, rfl, rfl, rfl, rfl, rfl, ⟨rfl, rfl⟩, fun hb => ⟨rfl, congrArg (FpResult.mk · {}) (clear_bit31 hb),
      congrArg (FpResult.mk · {}) (toggle_bit31 hb)⟩⟩
  case waits =>
    intro s rd rs1 o hr a even odd evenRd waitsFor
    have hev : even = evenReg rd := (evenReg_eq rd).symm
    have hod : odd = oddReg rd := (oddReg_eq rd).symm
    rw [hev, hod]
    have accepted {i : Instr} {depends : FpWork → Bool} {ok : State → Prop} {k : State → Res}
        (h : Accepts i depends ok k) (hs : ok s) (hok : ∀ u, FpFrame s u → ok u) : waitsFor i depends :=
      h.waits hs hr hok
    have waits {i : Instr} {depends : FpWork → Bool} (z : Size) (load : Bool) (k : Word → State → Res)
        (ha : (effectiveAddress s rs1 o).toNat % z.alignment = 0)
        (hi : ∀ u, FpFrame s u → exec i u = (fpEnabled u (aligned u (effectiveAddress u rs1 o) z (fpProvokes u
          (if load then fpInSequence u (fpSettled u depends (k (effectiveAddress u rs1 o)))
            else fpSettled u depends (k (effectiveAddress u rs1 o)))))).out) : waitsFor i depends :=
      accepted (accepts_access (ok := FpFrame s) (k := k) ha (fun u hu => by rw [hu.rest]; rfl) hi) (.refl s)
        fun _ hu => hu
    have evenOk {u : State} (hu : FpFrame s u) (he : evenRd) (k : Res) : evenFreg u rd k = k :=
      evenFreg_even k (by rw [hu.rest]; exact he)
    refine ⟨fun ha => ⟨waits .word true (fun a s => fpBind (memRead s .first (dataAsi s) a .word) [rd] fun v s =>
        .done (advance (setFreg s rd v))) ha fun u _ => rfl,
      waits .word false (fun a s => storeInt s (dataAsi s) a .word (freg s rd)) ha fun u _ => rfl,
      waits .word true (fun a s => fpBind (memRead s .first (dataAsi s) a .word) [] fun v s =>
        .done (advance { s with fsr := loadFsr s.cfg s.fsr v, fccWindow := 4 })) ha fun u _ => rfl,
      waits .word false (fun a s => (memWrite s .first (dataAsi s) a (fsrWord s) .word).bind fun _ s =>
        .done (advance { s with fsr := { s.fsr with ftt := 0#3 } })) ha fun u _ => rfl⟩,
      fun ha => ⟨fun he => ⟨waits .dword true (fun a s => fpBind (route s .first (dataAsi s) a false)
          [evenReg rd, oddReg rd] fun r s => fpBind (readAt s .first r a .dword) [evenReg rd, oddReg rd] fun v s =>
            fpBind (readAt (setFreg s (evenReg rd) v) .second r.next (a + 4#32) .dword) [evenReg rd, oddReg rd]
              fun v s => .done (advance (setFreg s (oddReg rd) v))) ha fun u hu => ?lddf,
        waits .dword false (fun a s => storeTwo s (dataAsi s) a (freg s (evenReg rd)) (freg s (oddReg rd)) fun s =>
          .done (advance s)) ha fun u hu => ?stdf⟩,
        fun hs => waits .dword false (fun a s => match s.cfg.fqPresent, s.fq with
          | true, e :: _ => storeTwo s (dataAsi s) a e.address e.instruction fun s => .done (advance (popFq s))
          | _, _ => .trap (.fpException (fpRecord 4#3)) s) ha fun u hu => ?stdfq⟩, fun i hw hi => ?fbfcc⟩
    case lddf =>
      exact congrArg (fun x => (fpEnabled u (aligned u (effectiveAddress u rs1 o) .dword (fpProvokes u x))).out)
        (evenOk hu he _)
    case stdf =>
      exact congrArg (fun x => (fpEnabled u (aligned u (effectiveAddress u rs1 o) .dword (fpProvokes u x))).out)
        (evenOk hu he _)
    case stdfq => exact congrArg Res.out (privileged_supervisor _ (by rw [hu.rest]; exact hs))
    case fbfcc =>
      obtain ⟨cond, always, a, disp, hx⟩ := exec_fbfcc hw hi
      exact accepted (fbfcc_accepts hx) trivial fun _ _ => trivial

end Sys2Proof.Machine
end

section
/-! What the bits of a floating-point operand stand for, the NaNs that operations deliver, and comparisons
(10_state.md section 10; 44_fpop.md R607 and section 9). -/

namespace Sys2Proof.Machine

/-! ### The formats -/

theorem fracBits_pos (f : FpFormat) : 0 < f.fracBits := by cases f <;> decide

theorem signBit_eq (f : FpFormat) : f.signBit = 2 ^ f.expBits * 2 ^ f.fracBits := Nat.pow_add ..

theorem maxExp_lt (f : FpFormat) : f.maxExp < 2 ^ f.expBits := Nat.sub_one_lt (Nat.two_pow_pos _).ne'

/-! ### Operands -/

theorem unpack_nan_bits {f : FpFormat} {b m : Nat} {s : Bool} (h : fpUnpack f b = .nan s m) :
    m = b ∧ s = (b % 2 ^ f.fracBits / 2 ^ (f.fracBits - 1) == 0) := by
  unfold fpUnpack at h
  simp only [] at h
  split at h
  · split at h
    · cases h
    · injection h with hs hm
      exact ⟨hm.symm, hs.symm⟩
  · split at h <;> cases h

/-- A quiet NaN has its quiet bit. -/
theorem quiet_of_quiet {f : FpFormat} {b m : Nat} (h : fpUnpack f b = .nan false m) : fpQuiet f b = b := by
  obtain ⟨-, hs⟩ := unpack_nan_bits h
  have hf := fracBits_pos f
  have hlt : b % 2 ^ f.fracBits < 2 ^ f.fracBits := Nat.mod_lt _ (Nat.two_pow_pos _)
  have hbit : b.testBit (f.fracBits - 1) = true := by
    have hm : (b % 2 ^ f.fracBits).testBit (f.fracBits - 1) = b.testBit (f.fracBits - 1) := by
      rw [Nat.testBit_mod_two_pow]
      simp [hf]
    rw [← hm, Nat.testBit_eq_decide_div_mod_eq]
    have hne : b % 2 ^ f.fracBits / 2 ^ (f.fracBits - 1) ≠ 0 := by simpa using hs.symm
    have h2 : b % 2 ^ f.fracBits / 2 ^ (f.fracBits - 1) < 2 := by
      rw [Nat.div_lt_iff_lt_mul (Nat.two_pow_pos _), ← Nat.pow_succ', Nat.succ_eq_add_one, Nat.sub_add_cancel hf]
      exact hlt
    generalize b % 2 ^ f.fracBits / 2 ^ (f.fracBits - 1) = c at hne h2 ⊢
    simp only [decide_eq_true_eq]
    omega
  unfold fpQuiet
  apply Nat.eq_of_testBit_eq
  intro i
  rw [Nat.testBit_or, Nat.testBit_two_pow]
  by_cases hi : f.fracBits - 1 = i
  · rw [← hi, hbit]
    rfl
  · simp [hi]

/-! ### The NaN of two operands (44_fpop.md R607) -/

/-- Which operand's NaN, made quiet, is delivered, and whether it is invalid. -/
theorem nanResult_signaling_second {f : FpFormat} (v : FpValue) (b : Nat) :
    fpNanResult f v (.nan true b) = some (fpQuiet f b, true) := by
  cases v <;> rfl

theorem nanResult_signaling_first {f : FpFormat} (a : Nat) {v : FpValue} (h : ∀ k, v ≠ .nan true k) :
    fpNanResult f (.nan true a) v = some (fpQuiet f a, true) := by
  cases v with
  | nan s b =>
    cases s with
    | true => exact absurd rfl (h b)
    | false => rfl
  | inf s => rfl
  | num s m e => rfl

/-- A second quiet NaN. -/
theorem nanResult_quiet_second {f : FpFormat} {v : FpValue} {b m : Nat} (h : ∀ k, v ≠ .nan true k)
    (hb : fpUnpack f b = .nan false m) : fpNanResult f v (fpUnpack f b) = some (b, false) := by
  obtain ⟨rfl, -⟩ := unpack_nan_bits hb
  have hq := quiet_of_quiet hb
  rw [hb]
  cases v with
  | nan s a =>
    cases s with
    | true => exact absurd rfl (h a)
    | false => rfl
  | inf s => exact congrArg (fun x => some (x, false)) hq
  | num s m e => exact congrArg (fun x => some (x, false)) hq

/-- A first quiet NaN alone. -/
theorem nanResult_quiet_first {f : FpFormat} {v : FpValue} {a m : Nat} (h : ∀ q k, v ≠ .nan q k)
    (ha : fpUnpack f a = .nan false m) : fpNanResult f (fpUnpack f a) v = some (a, false) := by
  obtain ⟨rfl, -⟩ := unpack_nan_bits ha
  have hq := quiet_of_quiet ha
  rw [ha]
  cases v with
  | nan s b => exact absurd rfl (h s b)
  | inf s => exact congrArg (fun x => some (x, false)) hq
  | num s m e => exact congrArg (fun x => some (x, false)) hq

theorem nanResult_none {f : FpFormat} {v w : FpValue} (hv : ∀ q k, v ≠ .nan q k) (hw : ∀ q k, w ≠ .nan q k) :
    fpNanResult f v w = none := by
  cases v with
  | nan s b => exact absurd rfl (hv s b)
  | inf s => cases w with
    | nan s b => exact absurd rfl (hw s b)
    | inf s => rfl
    | num s m e => rfl
  | num s m e => cases w with
    | nan s b => exact absurd rfl (hw s b)
    | inf s => rfl
    | num s m e => rfl

/-! ### The NaN of another format -/

/-- The quiet bit of the fraction is that of the number. -/
theorem quiet_frac (f : FpFormat) (x y : Nat) (h : y < 2 ^ f.fracBits) :
    fpQuiet f (x * 2 ^ f.fracBits + y) = x * 2 ^ f.fracBits + (y ||| 2 ^ (f.fracBits - 1)) := by
  have hf := fracBits_pos f
  have hq : 2 ^ (f.fracBits - 1) < 2 ^ f.fracBits := Nat.pow_lt_pow_right (by decide) (Nat.sub_one_lt hf.ne')
  unfold fpQuiet
  rw [Nat.mul_comm x, Nat.two_pow_add_eq_or_of_lt h, Nat.two_pow_add_eq_or_of_lt (Nat.or_lt_two_pow h hq), Nat.or_assoc]

/-- The fraction with its bits moved to another width. -/
theorem scaled_frac (x m n : Nat) : (if m ≤ n then x * 2 ^ (n - m) else x / 2 ^ (m - n)) = x * 2 ^ n / 2 ^ m := by
  split
  · next h =>
    rw [← Nat.sub_add_cancel h, Nat.pow_add, ← Nat.mul_assoc, Nat.mul_div_cancel _ (Nat.two_pow_pos _),
      Nat.add_sub_cancel]
  · next h =>
    have h := Nat.le_of_not_le h
    rw [← Nat.sub_add_cancel h, Nat.pow_add, Nat.mul_div_mul_right _ _ (Nat.two_pow_pos _), Nat.add_sub_cancel]

theorem transformNan_eq (f g : FpFormat) (x : Nat) :
    fpTransformNan f g x = x / f.signBit % 2 * g.signBit + g.maxExp * 2 ^ g.fracBits
        + (x % 2 ^ f.fracBits * 2 ^ g.fracBits / 2 ^ f.fracBits ||| 2 ^ (g.fracBits - 1)) := by
  have hlt : x % 2 ^ f.fracBits * 2 ^ g.fracBits / 2 ^ f.fracBits < 2 ^ g.fracBits := by
    rw [Nat.div_lt_iff_lt_mul (Nat.two_pow_pos _), Nat.mul_comm]
    exact Nat.mul_lt_mul_of_pos_left (Nat.mod_lt _ (Nat.two_pow_pos _)) (Nat.two_pow_pos _)
  have hsign : fpSigned g (x / f.signBit % 2 == 1) (g.maxExp * 2 ^ g.fracBits +
      x % 2 ^ f.fracBits * 2 ^ g.fracBits / 2 ^ f.fracBits) =
        (x / f.signBit % 2 * 2 ^ g.expBits + g.maxExp) * 2 ^ g.fracBits +
          x % 2 ^ f.fracBits * 2 ^ g.fracBits / 2 ^ f.fracBits := by
    have h2 : x / f.signBit % 2 = 0 ∨ x / f.signBit % 2 = 1 := by omega
    unfold fpSigned
    rw [signBit_eq g]
    rcases h2 with h | h
    · rw [h]
      simp
    · rw [h]
      simp only [beq_self_eq_true, if_true, Nat.one_mul, Nat.add_mul, Nat.add_assoc]
  unfold fpTransformNan
  simp only [scaled_frac]
  rw [hsign, quiet_frac g _ _ hlt, signBit_eq g, Nat.add_mul, Nat.mul_assoc]

/-- A NaN made quiet is transformed as it was. -/
theorem transformNan_quiet (f g : FpFormat) (x : Nat) : fpTransformNan f g (fpQuiet f x) = fpTransformNan f g x := by
  have hf := fracBits_pos f
  have hg := fracBits_pos g
  have hmod : fpQuiet f x % 2 ^ f.fracBits = x % 2 ^ f.fracBits ||| 2 ^ (f.fracBits - 1) := by
    unfold fpQuiet
    rw [Nat.or_mod_two_pow, Nat.mod_eq_of_lt (Nat.pow_lt_pow_right (by decide) (Nat.sub_one_lt hf.ne'))]
  have hdiv : fpQuiet f x / f.signBit = x / f.signBit := by
    unfold fpQuiet FpFormat.signBit
    rw [Nat.or_div_two_pow, Nat.div_eq_of_lt (Nat.pow_lt_pow_right (by decide) (by omega)), Nat.or_zero]
  have hscale (y : Nat) : (y ||| 2 ^ (f.fracBits - 1)) * 2 ^ g.fracBits / 2 ^ f.fracBits =
      y * 2 ^ g.fracBits / 2 ^ f.fracBits ||| 2 ^ (g.fracBits - 1) := by
    have hone : 2 ^ (f.fracBits - 1) * 2 ^ g.fracBits / 2 ^ f.fracBits = 2 ^ (g.fracBits - 1) := by
      rw [← Nat.pow_add, Nat.pow_div (by omega) (by decide)]
      congr 1
      omega
    rw [← hone, ← Nat.shiftLeft_eq, Nat.shiftLeft_or_distrib, Nat.or_div_two_pow, Nat.shiftLeft_eq, Nat.shiftLeft_eq]
  rw [transformNan_eq, transformNan_eq, hmod, hdiv, hscale, Nat.or_assoc, Nat.or_self]

/-! ### Numbers -/

/-- The number of a sign, a significand and an exponent. -/
noncomputable def numValue (s : Bool) (m : Nat) (e : Int) : ℝ := (if s then -1 else 1) * (m : ℝ) * (2 : ℝ) ^ e

theorem standsFor_iff (f : FpFormat) (a : Nat) (s : Bool) (x : ℝ) :
    StandsFor f a s x ↔ ∃ m e, fpUnpack f a = .num s m e ∧ x = numValue s m e := Iff.rfl

theorem numValue_eq_zero (s : Bool) (m : Nat) (e : Int) : numValue s m e = 0 ↔ m = 0 := by
  have h2 : (2 : ℝ) ^ e ≠ 0 := zpow_ne_zero _ (by norm_num)
  cases s <;> simp [numValue, h2]

theorem numValue_neg {s : Bool} {m : Nat} {e : Int} : numValue s m e < 0 ↔ s = true ∧ m ≠ 0 := by
  have h2 : (0 : ℝ) < (2 : ℝ) ^ e := zpow_pos (by norm_num) _
  cases s
  · simp only [numValue, Bool.false_eq_true, if_false, one_mul, false_and, iff_false, not_lt]
    positivity
  · simp [numValue, h2, Nat.pos_iff_ne_zero]

theorem numValue_negate (s : Bool) (m : Nat) (e : Int) : numValue (!s) m e = -numValue s m e := by
  cases s <;> simp [numValue]

/-- The integer of an aligned operand is its value in units of `2 ^ base`. -/
theorem aligned_value (s : Bool) (m : Nat) {e base : Int} (h : base ≤ e) :
    ((fpAligned s m e base : Int) : ℝ) * (2 : ℝ) ^ base = numValue s m e := by
  have hpow : (2 : ℝ) ^ (e - base).toNat * (2 : ℝ) ^ base = (2 : ℝ) ^ e := by
    rw [← zpow_natCast, ← zpow_add₀ (by norm_num), Int.toNat_of_nonneg (by omega)]
    congr 1
    omega
  unfold fpAligned numValue
  cases s
  · simp [mul_assoc, hpow]
  · simp [mul_assoc, hpow]

theorem unpack_ne_nan_of_num {f : FpFormat} {a m : Nat} {e : Int} {s : Bool} (h : fpUnpack f a = .num s m e) :
    ∀ q k, fpUnpack f a ≠ .nan q k := by simp [h]

theorem unpack_ne_nan_of_inf {f : FpFormat} {a : Nat} {s : Bool} (h : fpUnpack f a = .inf s) :
    ∀ q k, fpUnpack f a ≠ .nan q k := by simp [h]

/-! ### Operations without a NaN operand -/

section
variable {f g : FpFormat} {r : Rounding} {a b : Nat} (ha : ∀ q k, fpUnpack f a ≠ .nan q k)
  (hb : ∀ q k, fpUnpack f b ≠ .nan q k)
include ha hb

theorem fpAdd_eq : fpAdd f r a b = fpSum f r (fpUnpack f a) (fpUnpack f b) := by
  rw [fpAdd, nanResult_none ha hb]

theorem fpSub_eq : fpSub f r a b = fpSum f r (fpUnpack f a) (fpUnpack f b).negate := by
  rw [fpSub, nanResult_none ha hb]

theorem fpMul_eq : fpMul f g r a b = fpProduct g r (fpUnpack f a) (fpUnpack f b) := by
  rw [fpMul, nanResult_none ha hb]

theorem fpDiv_eq : fpDiv f r a b = fpQuotient f r (fpUnpack f a) (fpUnpack f b) := by
  rw [fpDiv, nanResult_none ha hb]

end

/-- Settles O53. -/
theorem nanResults : Obligations.NanResults := by
  unfold Obligations.NanResults
  refine ⟨fun f g r a b => ?_, fun f g r a b s1 s2 => ?_⟩
  · intro quiet transformed table
    have rows {op : FpResult} {q t : Nat → Nat} (k : Nat × Bool → FpResult)
        (ho : ∀ x, fpNanResult f (fpUnpack f a) (fpUnpack f b) = some x → op = k x)
        (hq : ∀ x, k (fpQuiet f x, true) = ⟨q x, { nv := true }⟩) (ht : ∀ x, k (x, false) = ⟨t x, {}⟩) :
        table op q t := by
      refine ⟨fun m hb => ?_, fun m ha hb => ?_, fun m ha hb => ?_, fun m ha hb => ?_⟩
      · obtain ⟨rfl, -⟩ := unpack_nan_bits hb
        exact (ho _ (hb ▸ nanResult_signaling_second _ _)).trans (hq _)
      · obtain ⟨rfl, -⟩ := unpack_nan_bits ha
        exact (ho _ (ha ▸ nanResult_signaling_first _ hb)).trans (hq _)
      · exact (ho _ (nanResult_quiet_second ha hb)).trans (ht _)
      · exact (ho _ (nanResult_quiet_first hb ha)).trans (ht _)
    refine ⟨?_, fun hfg => ?_, fun signaling m ha => ?_⟩
    · have same {op : FpResult} (ho : ∀ x, fpNanResult f (fpUnpack f a) (fpUnpack f b) = some x → op = fpNan x) :
          table op quiet id := rows fpNan ho (fun _ => rfl) fun _ => rfl
      simp only [List.forall_mem_cons, List.not_mem_nil, false_imp_iff, implies_true, and_true]
      refine ⟨same fun x hx => ?_, same fun x hx => ?_, same fun x hx => ?_, same fun x hx => ?_⟩
      · rw [fpAdd, hx]
      · rw [fpSub, hx]
      · rw [fpMul, hx]
        exact if_pos rfl
      · rw [fpDiv, hx]
    · refine rows (fun x => fpNan (fpTransformNan f g x.1, x.2)) (fun x hx => ?_) (fun x => ?_) fun x => ?_
      · rw [fpMul, hx]
        exact if_neg hfg
      · show fpNan (fpTransformNan f g (fpQuiet f x), true) = _
        rw [transformNan_quiet, transformNan_eq]
        rfl
      · show fpNan (fpTransformNan f g x, false) = _
        rw [transformNan_eq]
        rfl
    · obtain ⟨rfl, -⟩ := unpack_nan_bits ha
      refine ⟨?_, fun _ => ?_⟩
      · rw [fpSqrt, ha]
        rfl
      · rw [fpConvert, ha]
        simp only [transformNan_eq]
        rfl
  · intro invalid
    refine ⟨fun x hx h0 => ?_, fun ha => ?_, fun ha hb => ?_, fun ha => ⟨fun hb => ?_, fun hb => ?_⟩⟩
    · obtain ⟨m, e, hu, rfl⟩ := (standsFor_iff ..).mp hx
      obtain ⟨rfl, hm⟩ := numValue_neg.mp h0
      show fpSqrt f r a = fpInvalid f
      rw [fpSqrt, hu]
      simp [hm]
    · show fpSqrt f r a = fpInvalid f
      rw [fpSqrt, ha]
      rfl
    · obtain ⟨m1, e1, hu1, h1⟩ := (standsFor_iff ..).mp ha
      obtain ⟨m2, e2, hu2, h2⟩ := (standsFor_iff ..).mp hb
      obtain rfl := (numValue_eq_zero ..).mp h1.symm
      obtain rfl := (numValue_eq_zero ..).mp h2.symm
      show fpDiv f r a b = fpInvalid f
      rw [fpDiv_eq (unpack_ne_nan_of_num hu1) (unpack_ne_nan_of_num hu2), hu1, hu2]
      rfl
    · have hna := unpack_ne_nan_of_inf ha
      have hnb := unpack_ne_nan_of_inf hb
      refine ⟨?_, fun hs => ?_, fun hs => ?_⟩
      · show fpDiv f r a b = fpInvalid f
        rw [fpDiv_eq hna hnb, ha, hb]
        rfl
      · show fpAdd f r a b = fpInvalid f
        rw [fpAdd_eq hna hnb, ha, hb]
        exact if_neg hs
      · show fpSub f r a b = fpInvalid f
        rw [fpSub_eq hna hnb, ha, hb]
        exact if_neg (by simp [hs])
    · obtain ⟨m, e, hu, h⟩ := (standsFor_iff ..).mp hb
      obtain rfl := (numValue_eq_zero ..).mp h.symm
      have hna := unpack_ne_nan_of_inf ha
      have hnb := unpack_ne_nan_of_num hu
      refine ⟨?_, ?_⟩
      · show fpMul f g r a b = fpInvalid g
        rw [fpMul_eq hna hnb, ha, hu]
        rfl
      · show fpMul f g r b a = fpInvalid g
        rw [fpMul_eq hnb hna, ha, hu]
        rfl

/-! ### Comparisons -/

theorem fpOrder_aligned {s1 s2 : Bool} {m1 m2 : Nat} {e1 e2 base : Int} (h1 : base ≤ e1) (h2 : base ≤ e2) :
    (numValue s1 m1 e1 = numValue s2 m2 e2 → fpOrder (fpAligned s1 m1 e1 base) (fpAligned s2 m2 e2 base) = 0#2) ∧
      (numValue s1 m1 e1 < numValue s2 m2 e2 →
        fpOrder (fpAligned s1 m1 e1 base) (fpAligned s2 m2 e2 base) = 1#2) ∧
      (numValue s2 m2 e2 < numValue s1 m1 e1 →
        fpOrder (fpAligned s1 m1 e1 base) (fpAligned s2 m2 e2 base) = 2#2) := by
  rw [← aligned_value s1 m1 h1, ← aligned_value s2 m2 h2]
  generalize fpAligned s1 m1 e1 base = i
  generalize fpAligned s2 m2 e2 base = j
  have hpos : (0 : ℝ) < (2 : ℝ) ^ base := zpow_pos (by norm_num) _
  rw [mul_left_inj' hpos.ne', mul_lt_mul_iff_left₀ hpos, mul_lt_mul_iff_left₀ hpos, Int.cast_inj, Int.cast_lt,
    Int.cast_lt]
  refine ⟨fun h => if_pos h, fun h => ?_, fun h => ?_⟩
  · rw [fpOrder, if_neg h.ne, if_pos h]
  · rw [fpOrder, if_neg h.ne', if_neg h.asymm]

/-- Settles O50. -/
theorem floatingCompares : Obligations.FloatingCompares := by
  unfold Obligations.FloatingCompares
  refine ⟨fun s rs1 rs2 => ?_, fun f a b => ⟨fun s1 s2 x y hx hy => ?_, fun s1 s2 ha => ⟨fun hb => ?_, fun y hy => ?_⟩,
    fun h => ?_, fun quietToo => ?_⟩⟩
  · intro compares hr
    have row {i : Instr} {f : FpFormat} {q : Bool} (hi : exec i s = (fpop s (.compare f q) 0#5 rs1 rs2).out) :
        compares i f q := by
      have h := fpop_outcome hr hi rfl
      have hwin : windowBehind s (.compare f q) = max s.fccWindow 2 := rfl
      simp only [fpDests, fpFcc, FpWork.sources, FpWork.results, fpWork, FpOp.formats, fpOperandBits, fpBits_eq, hwin,
        fpStandard, fpCompareResult, invalid_bits] at h
      exact h
    clear_value compares
    exact ⟨row rfl, row rfl, row rfl, row rfl, row rfl, row rfl⟩
  · obtain ⟨m1, e1, hu1, rfl⟩ := (standsFor_iff ..).mp hx
    obtain ⟨m2, e2, hu2, rfl⟩ := (standsFor_iff ..).mp hy
    unfold fpCompare
    rw [hu1, hu2]
    exact fpOrder_aligned (min_le_left ..) (min_le_right ..)
  · unfold fpCompare
    rw [ha, hb]
    cases s1 <;> cases s2 <;> rfl
  · obtain ⟨m, e, hu, -⟩ := (standsFor_iff ..).mp hy
    unfold fpCompare
    rw [ha, hu]
    exact ⟨rfl, rfl⟩
  · unfold fpCompare
    rcases h with ⟨q, n, h⟩ | ⟨q, n, h⟩
    · rw [h]
    · rw [h]
      split <;> simp_all
  · unfold fpRaisesInvalid
    cases fpUnpack f a <;> simp

end Sys2Proof.Machine
end

section
/-! The numbers of a floating-point format in the order of their magnitudes: the bits below the sign, read as a
number, count them (10_state.md section 10). -/

namespace Sys2Proof.Machine

/-! ### The number of a magnitude -/

/-- The significand of a magnitude: the fraction, with the hidden bit of a normal number. -/
def magMant (f : FpFormat) (mag : Nat) : Nat :=
  if mag < 2 ^ f.fracBits then mag else mag % 2 ^ f.fracBits + 2 ^ f.fracBits

/-- Its exponent. -/
def magExp (f : FpFormat) (mag : Nat) : Int := f.minQuantum + (mag / 2 ^ f.fracBits - 1 : Nat)

/-- Its value. -/
noncomputable def magValue (f : FpFormat) (mag : Nat) : ℝ := (magMant f mag : ℝ) * (2 : ℝ) ^ magExp f mag

/-- The magnitude of infinity, the first beyond the numbers. -/
def magInf (f : FpFormat) : Nat := f.maxExp * 2 ^ f.fracBits

theorem magInf_lt (f : FpFormat) : magInf f < f.signBit := by
  rw [signBit_eq]
  exact Nat.mul_lt_mul_of_pos_right (maxExp_lt f) (Nat.two_pow_pos _)

theorem fpSigned_bits {f : FpFormat} {mag : Nat} (h : mag < f.signBit) (s : Bool) :
    (fpSigned f s mag / f.signBit % 2 == 1) = s ∧
      fpSigned f s mag / 2 ^ f.fracBits % 2 ^ f.expBits = mag / 2 ^ f.fracBits ∧
        fpSigned f s mag % 2 ^ f.fracBits = mag % 2 ^ f.fracBits ∧ fpSigned f s mag < 2 * f.signBit := by
  have hpos : 0 < f.signBit := Nat.two_pow_pos _
  have hlt : mag / 2 ^ f.fracBits < 2 ^ f.expBits := by
    rw [Nat.div_lt_iff_lt_mul (Nat.two_pow_pos _), ← signBit_eq]
    exact h
  cases s
  · simp only [fpSigned, Bool.false_eq_true, if_false]
    refine ⟨?_, Nat.mod_eq_of_lt hlt, trivial, by omega⟩
    rw [Nat.div_eq_of_lt h]
    rfl
  · simp only [fpSigned, if_true]
    refine ⟨?_, ?_, ?_, by omega⟩
    · rw [Nat.add_div_left _ hpos, Nat.div_eq_of_lt h]
      rfl
    · rw [signBit_eq, Nat.mul_comm, Nat.add_comm, Nat.add_mul_div_left _ _ (Nat.two_pow_pos _), Nat.add_mod_right,
        Nat.mod_eq_of_lt hlt]
    · rw [signBit_eq, Nat.mul_comm, Nat.add_comm, Nat.add_mul_mod_self_left]

/-- The number that a sign and a magnitude below infinity stand for. -/
theorem unpack_signed {f : FpFormat} {mag : Nat} (h : mag < magInf f) (s : Bool) :
    fpUnpack f (fpSigned f s mag) = .num s (magMant f mag) (magExp f mag) := by
  obtain ⟨hs, he, hf, -⟩ := fpSigned_bits (h.trans (magInf_lt f)) s
  have hlt : mag / 2 ^ f.fracBits < f.maxExp := by
    rwa [Nat.div_lt_iff_lt_mul (Nat.two_pow_pos _)]
  unfold fpUnpack magMant magExp
  simp only [hs, he, hf]
  rw [if_neg hlt.ne]
  by_cases h0 : mag / 2 ^ f.fracBits = 0
  · have hm : mag < 2 ^ f.fracBits := by
      rcases Nat.div_eq_zero_iff.mp h0 with h | h
      · exact absurd h (Nat.two_pow_pos _).ne'
      · exact h
    rw [if_pos h0, if_pos hm, h0, Nat.mod_eq_of_lt hm]
    simp
  · have hm : ¬mag < 2 ^ f.fracBits := fun hm => h0 (Nat.div_eq_of_lt hm)
    rw [if_neg h0, if_neg hm]

theorem unpack_inf (f : FpFormat) (s : Bool) : fpUnpack f (fpSigned f s (magInf f)) = .inf s := by
  obtain ⟨hs, he, hf, -⟩ := fpSigned_bits (magInf_lt f) s
  have hdiv : magInf f / 2 ^ f.fracBits = f.maxExp := Nat.mul_div_cancel _ (Nat.two_pow_pos _)
  have hmod : magInf f % 2 ^ f.fracBits = 0 := Nat.mul_mod_left ..
  unfold fpUnpack
  simp only [hs, he, hf]
  rw [if_pos hdiv, if_pos hmod]

/-- Every number is that of a magnitude. -/
theorem unpack_num_magnitude {f : FpFormat} {b m : Nat} {e : Int} {s : Bool} (h : fpUnpack f b = .num s m e) :
    ∃ mag, mag < magInf f ∧ m = magMant f mag ∧ e = magExp f mag := by
  have hp := Nat.two_pow_pos f.fracBits
  have hx : b / 2 ^ f.fracBits % 2 ^ f.expBits < 2 ^ f.expBits := Nat.mod_lt _ (Nat.two_pow_pos _)
  have hy : b % 2 ^ f.fracBits < 2 ^ f.fracBits := Nat.mod_lt _ hp
  unfold fpUnpack at h
  simp only [] at h
  generalize b / 2 ^ f.fracBits % 2 ^ f.expBits = x at h hx
  generalize b % 2 ^ f.fracBits = y at h hy
  have hdiv : (x * 2 ^ f.fracBits + y) / 2 ^ f.fracBits = x := by
    rw [Nat.mul_comm, Nat.mul_add_div hp, Nat.div_eq_of_lt hy, Nat.add_zero]
  have hmod : (x * 2 ^ f.fracBits + y) % 2 ^ f.fracBits = y := by
    rw [Nat.mul_comm, Nat.mul_add_mod, Nat.mod_eq_of_lt hy]
  split at h
  · split at h <;> cases h
  · next hmax =>
    have hmax : x < f.maxExp := by
      have := Nat.le_sub_one_of_lt hx
      exact Nat.lt_of_le_of_ne this hmax
    have hlt : x * 2 ^ f.fracBits + y < magInf f := by
      have := Nat.mul_le_mul_right (2 ^ f.fracBits) (Nat.succ_le_of_lt hmax)
      unfold magInf
      rw [Nat.succ_mul] at this
      omega
    refine ⟨x * 2 ^ f.fracBits + y, hlt, ?_⟩
    unfold magMant magExp
    rw [hdiv, hmod]
    split at h
    · next h0 =>
      subst h0
      injection h with _ hm he
      rw [Nat.zero_mul, Nat.zero_add, if_pos hy, ← he, ← hm]
      simp
    · next h0 =>
      injection h with _ hm he
      have hge : ¬x * 2 ^ f.fracBits + y < 2 ^ f.fracBits := by
        have := Nat.mul_le_mul_right (2 ^ f.fracBits) (Nat.one_le_iff_ne_zero.mpr h0)
        omega
      rw [if_neg hge, ← he, ← hm]
      exact ⟨rfl, rfl⟩

/-! ### The order of the numbers -/

/-- A significand at most twice the hidden bit, in units of some quantum, the least one or with the hidden bit. -/
theorem magValue_eq {f : FpFormat} {q kept : Nat} (hq : q = 0 ∨ 2 ^ f.fracBits ≤ kept)
    (hk : kept ≤ 2 ^ (f.fracBits + 1)) :
    magValue f (q * 2 ^ f.fracBits + kept) = (kept : ℝ) * (2 : ℝ) ^ (f.minQuantum + (q : Int)) := by
  have hp := Nat.two_pow_pos f.fracBits
  have hpow : 2 ^ (f.fracBits + 1) = 2 * 2 ^ f.fracBits := Nat.pow_succ'
  have hdiv (x : Nat) : (q * 2 ^ f.fracBits + x) / 2 ^ f.fracBits = q + x / 2 ^ f.fracBits := by
    rw [Nat.mul_comm, Nat.mul_add_div hp]
  have hmod (x : Nat) : (q * 2 ^ f.fracBits + x) % 2 ^ f.fracBits = x % 2 ^ f.fracBits := by
    rw [Nat.mul_comm, Nat.mul_add_mod]
  unfold magValue magMant magExp
  rw [hdiv, hmod]
  by_cases hlow : kept < 2 ^ f.fracBits
  · obtain rfl := hq.resolve_right (by omega)
    rw [Nat.div_eq_of_lt hlow, Nat.zero_mul, Nat.zero_add, if_pos hlow]
  · have hge : ¬q * 2 ^ f.fracBits + kept < 2 ^ f.fracBits := by omega
    rw [if_neg hge]
    rcases Nat.lt_or_eq_of_le hk with hk | rfl
    · have h1 : kept / 2 ^ f.fracBits = 1 := Nat.div_eq_of_lt_le (by omega) (by omega)
      have hm : kept % 2 ^ f.fracBits + 2 ^ f.fracBits = kept := by
        rw [Nat.mod_eq_sub_div_mul, h1]
        omega
      rw [hm, h1]
      simp
    · have h2 : 2 ^ (f.fracBits + 1) / 2 ^ f.fracBits = 2 := by rw [hpow, Nat.mul_div_cancel _ hp]
      have h0 : 2 ^ (f.fracBits + 1) % 2 ^ f.fracBits = 0 := by rw [hpow, Nat.mul_mod_left]
      rw [h2, h0, show q + 2 - 1 = q + 1 from rfl]
      push_cast
      rw [zero_add, pow_succ, mul_assoc, ← add_assoc, zpow_add_one₀ (by norm_num)]
      ring

/-- Every magnitude in units of its quantum. -/
theorem magnitude_quantum (f : FpFormat) (mag : Nat) : ∃ q kept, mag = q * 2 ^ f.fracBits + kept ∧
    (q = 0 ∨ 2 ^ f.fracBits ≤ kept) ∧ kept < 2 ^ (f.fracBits + 1) := by
  have hp := Nat.two_pow_pos f.fracBits
  have hpow : 2 ^ (f.fracBits + 1) = 2 * 2 ^ f.fracBits := Nat.pow_succ'
  by_cases hlow : mag < 2 ^ f.fracBits
  · exact ⟨0, mag, by simp, .inl rfl, by omega⟩
  · have hmod := Nat.mod_lt mag hp
    have hdm := Nat.div_add_mod mag (2 ^ f.fracBits)
    have h1 : 1 ≤ mag / 2 ^ f.fracBits := (Nat.one_le_div_iff hp).mpr (by omega)
    refine ⟨mag / 2 ^ f.fracBits - 1, mag % 2 ^ f.fracBits + 2 ^ f.fracBits, ?_, .inr (by omega), by omega⟩
    rw [Nat.sub_mul, Nat.one_mul, Nat.mul_comm]
    have := Nat.mul_le_mul_left (2 ^ f.fracBits) h1
    omega

theorem magValue_lt_succ (f : FpFormat) (mag : Nat) : magValue f mag < magValue f (mag + 1) := by
  obtain ⟨q, kept, rfl, hq, hk⟩ := magnitude_quantum f mag
  rw [magValue_eq hq hk.le, Nat.add_assoc, magValue_eq (hq.imp id (by omega)) hk]
  push_cast
  have h2 : (0 : ℝ) < (2 : ℝ) ^ (f.minQuantum + (q : Int)) := zpow_pos (by norm_num) _
  nlinarith

theorem magValue_strictMono (f : FpFormat) : StrictMono (magValue f) := strictMono_nat_of_lt_succ (magValue_lt_succ f)

theorem magValue_zero (f : FpFormat) : magValue f 0 = 0 := by simp [magValue, magMant]

theorem magValue_nonneg (f : FpFormat) (mag : Nat) : 0 ≤ magValue f mag := by
  rw [← magValue_zero f]
  exact (magValue_strictMono f).monotone (Nat.zero_le _)

/-- The numbers of a format are the values of the magnitudes below infinity, with both signs. -/
theorem isNumber_iff (f : FpFormat) (z : ℝ) :
    IsNumber f z ↔ ∃ mag, mag < magInf f ∧ (z = magValue f mag ∨ z = -magValue f mag) := by
  constructor
  · rintro ⟨bits, s, m, e, hu, rfl⟩
    obtain ⟨mag, hlt, rfl, rfl⟩ := unpack_num_magnitude hu
    refine ⟨mag, hlt, ?_⟩
    cases s
    · left
      simp [magValue]
    · right
      simp [magValue]
  · rintro ⟨mag, hlt, h⟩
    rcases h with rfl | rfl
    · exact ⟨_, false, _, _, unpack_signed hlt false, by simp [magValue]⟩
    · exact ⟨_, true, _, _, unpack_signed hlt true, by simp [magValue]⟩

end Sys2Proof.Machine
end

section
/-! Rounding: where the exact magnitude lies among the numbers of the format, and what `fpRound` makes of it
(10_state.md R56, R67; 44_fpop.md R605). -/

namespace Sys2Proof.Machine

/-! ### The steps of `fpRound` -/

/-- The exponent of the least significant bit that is kept. -/
def roundQuantum (f : FpFormat) (mant : Nat) (exp : Int) : Int :=
  max (exp + (Nat.log2 mant : Nat) - (f.fracBits : Int)) f.minQuantum

/-- How many bits are cut off. -/
def roundShift (f : FpFormat) (mant : Nat) (exp : Int) : Nat := (roundQuantum f mant exp - exp).toNat

def roundScaled (f : FpFormat) (mant : Nat) (exp : Int) : Nat := mant * 2 ^ (exp - roundQuantum f mant exp).toNat

/-- What is kept, and what is cut off. -/
def roundKept (f : FpFormat) (mant : Nat) (exp : Int) : Nat := roundScaled f mant exp / 2 ^ roundShift f mant exp

def roundRem (f : FpFormat) (mant : Nat) (exp : Int) : Nat := roundScaled f mant exp % 2 ^ roundShift f mant exp

/-- The magnitude below, toward zero. -/
def roundDown (f : FpFormat) (mant : Nat) (exp : Int) : Nat :=
  (roundQuantum f mant exp - f.minQuantum).toNat * 2 ^ f.fracBits + roundKept f mant exp

/-- The result of a rounded magnitude. -/
def roundedResult (f : FpFormat) (r : Rounding) (sign : Bool) (mag : Nat) (tiny inexact : Bool) : FpResult :=
  if magInf f ≤ mag then
    ⟨fpSigned f sign (if overflowsToInf r.rd sign then magInf f else magInf f - 1), { of := true, nx := true }⟩
  else ⟨fpSigned f sign mag, { uf := tiny && (inexact || r.ufm), nx := inexact }⟩

theorem fpRound_zero (f : FpFormat) (r : Rounding) (sign : Bool) (exp : Int) (sticky : Bool) :
    fpRound f r sign 0 exp sticky = ⟨fpSigned f sign 0, {}⟩ := if_pos rfl

theorem fpRound_eq {f : FpFormat} {r : Rounding} {sign : Bool} {mant : Nat} {exp : Int} {sticky : Bool}
    (hm : mant ≠ 0) : fpRound f r sign mant exp sticky =
      roundedResult f r sign
        (if roundsUp r.rd sign (roundKept f mant exp % 2 == 1) (roundRem f mant exp) (roundShift f mant exp) sticky then
          roundDown f mant exp + 1 else roundDown f mant exp)
        (decide (exp + (Nat.log2 mant : Nat) < f.minQuantum + (f.fracBits : Int)))
        (decide (0 < roundRem f mant exp) || sticky) := by
  refine (if_neg hm).trans ?_
  have hsum : (if roundsUp r.rd sign (roundKept f mant exp % 2 == 1) (roundRem f mant exp) (roundShift f mant exp)
      sticky then roundDown f mant exp + 1 else roundDown f mant exp) =
      (roundQuantum f mant exp - f.minQuantum).toNat * 2 ^ f.fracBits +
        if roundsUp r.rd sign (roundKept f mant exp % 2 == 1) (roundRem f mant exp) (roundShift f mant exp) sticky then
          roundKept f mant exp + 1 else roundKept f mant exp := by
    split <;> rfl
  rw [hsum]
  rfl

/-! ### Where the exact magnitude lies -/

/-- The exact magnitude: `mant * 2 ^ exp`, or a little more if `sticky`. -/
def ExactMagnitude (mant : Nat) (exp : Int) (sticky : Bool) (x : ℝ) : Prop :=
  if sticky then (mant : ℝ) * 2 ^ exp < x ∧ x < (mant + 1 : ℝ) * 2 ^ exp else x = (mant : ℝ) * 2 ^ exp

/-- The magnitude `x` lies the part `ρ` of the way from the number `mag` to the next one. -/
structure Located (f : FpFormat) (x : ℝ) (mag : Nat) (ρ : ℝ) : Prop where
  nonneg : 0 ≤ ρ
  lt_one : ρ < 1
  eq : x = magValue f mag + ρ * (magValue f (mag + 1) - magValue f mag)

/-- What is cut off, and a little more if `sticky`, against the half of an even unit. -/
theorem half_compared {N rem : Nat} {δ : ℝ} {sticky : Bool} (h0 : 0 ≤ δ) (h1 : δ < 1) (hs : 0 < δ ↔ sticky = true)
    (he : sticky = true → ∃ n, N = 2 * n) :
    ((N : ℝ) < 2 * (rem + δ) ↔ N < 2 * rem ∨ 2 * rem = N ∧ sticky = true) ∧
      (2 * (rem + δ) = (N : ℝ) ↔ 2 * rem = N ∧ sticky = false) := by
  cases sticky with
  | false =>
    have hδ : δ = 0 := le_antisymm (not_lt.mp fun h => by simpa using hs.mp h) h0
    rw [hδ, add_zero]
    constructor
    · simp only [Bool.false_eq_true, and_false, or_false]
      exact_mod_cast Iff.rfl
    · simp only [and_true]
      exact_mod_cast Iff.rfl
  | true =>
    obtain ⟨n, rfl⟩ := he rfl
    have hpos := hs.mpr rfl
    rcases Nat.lt_or_ge rem n with hlt | hge
    · have hr : (rem : ℝ) + 1 ≤ n := by exact_mod_cast hlt
      push_cast
      refine ⟨⟨fun h => by linarith, fun h => by omega⟩, fun h => by linarith, fun h => by simp at h⟩
    · have hr : (n : ℝ) ≤ rem := by exact_mod_cast hge
      push_cast
      refine ⟨⟨fun _ => by simp only [and_true]; omega, fun _ => by linarith⟩, fun h => by linarith, fun h => by simp at h⟩

section
variable {f : FpFormat} {mant : Nat} {exp : Int}

theorem roundKept_lt : roundKept f mant exp < 2 ^ (f.fracBits + 1) := by
  have hl : mant < 2 ^ (Nat.log2 mant + 1) := Nat.lt_log2_self
  unfold roundKept roundScaled roundShift
  rw [Nat.div_lt_iff_lt_mul (Nat.two_pow_pos _), ← Nat.pow_add]
  calc mant * 2 ^ (exp - roundQuantum f mant exp).toNat
      < 2 ^ (Nat.log2 mant + 1) * 2 ^ (exp - roundQuantum f mant exp).toNat :=
        Nat.mul_lt_mul_of_pos_right hl (Nat.two_pow_pos _)
    _ = 2 ^ (Nat.log2 mant + 1 + (exp - roundQuantum f mant exp).toNat) := (Nat.pow_add ..).symm
    _ ≤ _ := Nat.pow_le_pow_right (by decide) (by unfold roundQuantum; omega)

/-- The exact magnitude in units of what is cut off. -/
theorem scaled_value : (roundScaled f mant exp : ℝ) * 2 ^ (roundQuantum f mant exp - (roundShift f mant exp : Int)) =
    (mant : ℝ) * 2 ^ exp := by
  unfold roundScaled roundShift
  push_cast
  rw [mul_assoc, ← zpow_natCast, ← zpow_add₀ (by norm_num)]
  congr 2
  omega

/-- With `sticky` at least one bit is cut off. -/
theorem roundShift_pos (h : f.fracBits + 1 ≤ Nat.log2 mant) : 1 ≤ roundShift f mant exp := by
  unfold roundShift roundQuantum
  omega

variable (hm : mant ≠ 0)
include hm

theorem roundKept_hidden :
    (roundQuantum f mant exp - f.minQuantum).toNat = 0 ∨ 2 ^ f.fracBits ≤ roundKept f mant exp := by
  have hl : 2 ^ Nat.log2 mant ≤ mant := Nat.log2_self_le hm
  by_cases hq : roundQuantum f mant exp = f.minQuantum
  · left
    omega
  · right
    unfold roundKept roundScaled roundShift
    rw [Nat.le_div_iff_mul_le (Nat.two_pow_pos _), ← Nat.pow_add]
    calc 2 ^ (f.fracBits + (roundQuantum f mant exp - exp).toNat)
        ≤ 2 ^ (Nat.log2 mant + (exp - roundQuantum f mant exp).toNat) :=
          Nat.pow_le_pow_right (by decide) (by unfold roundQuantum at hq ⊢; omega)
      _ = 2 ^ Nat.log2 mant * 2 ^ (exp - roundQuantum f mant exp).toNat := Nat.pow_add ..
      _ ≤ _ := Nat.mul_le_mul_right _ hl

theorem roundDown_value :
    magValue f (roundDown f mant exp) = (roundKept f mant exp : ℝ) * 2 ^ roundQuantum f mant exp ∧
      magValue f (roundDown f mant exp + 1) = (roundKept f mant exp + 1 : ℝ) * 2 ^ roundQuantum f mant exp := by
  have hlt := roundKept_lt (f := f) (mant := mant) (exp := exp)
  have hq : f.minQuantum + ((roundQuantum f mant exp - f.minQuantum).toNat : Int) = roundQuantum f mant exp := by
    unfold roundQuantum
    omega
  have h0 := roundKept_hidden (f := f) (exp := exp) hm
  unfold roundDown
  rw [Nat.add_assoc, magValue_eq h0 hlt.le, magValue_eq (h0.imp id (by omega)) hlt, hq]
  push_cast
  exact ⟨rfl, rfl⟩

/-- Where the exact magnitude lies, as what is cut off tells. -/
theorem exact_located {sticky : Bool} {x : ℝ} (hx : ExactMagnitude mant exp sticky x)
    (hs : sticky = true → f.fracBits + 1 ≤ Nat.log2 mant) :
    ∃ ρ, Located f x (roundDown f mant exp) ρ ∧
      (0 < ρ ↔ 0 < roundRem f mant exp ∨ sticky = true) ∧
      (1 < 2 * ρ ↔ 2 ^ roundShift f mant exp < 2 * roundRem f mant exp ∨
        2 * roundRem f mant exp = 2 ^ roundShift f mant exp ∧ sticky = true) ∧
      (2 * ρ = 1 ↔ 2 * roundRem f mant exp = 2 ^ roundShift f mant exp ∧ sticky = false) := by
  obtain ⟨hv, hv1⟩ := roundDown_value (f := f) (exp := exp) hm
  have hscaled := scaled_value (f := f) (mant := mant) (exp := exp)
  have hdm : roundKept f mant exp * 2 ^ roundShift f mant exp + roundRem f mant exp = roundScaled f mant exp :=
    Nat.div_add_mod' ..
  have hrem : roundRem f mant exp < 2 ^ roundShift f mant exp := Nat.mod_lt _ (Nat.two_pow_pos _)
  have hquantum : (2 : ℝ) ^ roundQuantum f mant exp =
      2 ^ roundShift f mant exp * 2 ^ (roundQuantum f mant exp - (roundShift f mant exp : Int)) := by
    rw [← zpow_natCast, ← zpow_add₀ (by norm_num)]
    congr 1
    omega
  have hsticky : sticky = true → roundQuantum f mant exp - (roundShift f mant exp : Int) = exp ∧
      ∃ n, 2 ^ roundShift f mant exp = 2 * n := by
    intro h
    have h1 := roundShift_pos (f := f) (exp := exp) (hs h)
    refine ⟨?_, 2 ^ (roundShift f mant exp - 1), ?_⟩
    · unfold roundShift at h1 ⊢
      omega
    · rw [← Nat.pow_succ', Nat.succ_eq_add_one, Nat.sub_add_cancel h1]
  generalize hE : roundQuantum f mant exp - (roundShift f mant exp : Int) = E at *
  have hu : (0 : ℝ) < 2 ^ E := zpow_pos (by norm_num) _
  obtain ⟨δ, hδ0, hδ1, hδs, hxδ⟩ : ∃ δ : ℝ, 0 ≤ δ ∧ δ < 1 ∧ (0 < δ ↔ sticky = true) ∧
      x = (roundScaled f mant exp + δ) * 2 ^ E := by
    unfold ExactMagnitude at hx
    cases sticky with
    | false =>
      refine ⟨0, le_rfl, one_pos, by simp, ?_⟩
      rw [add_zero, hscaled]
      exact hx
    | true =>
      obtain ⟨rfl, -⟩ := hsticky rfl
      have hscaled := mul_right_cancel₀ hu.ne' hscaled
      obtain ⟨hlo, hhi⟩ := hx
      refine ⟨x / 2 ^ E - mant, ?_, ?_, ?_, ?_⟩
      · rw [sub_nonneg, le_div_iff₀ hu]
        exact hlo.le
      · rw [sub_lt_iff_lt_add', div_lt_iff₀ hu]
        exact hhi
      · simp only [iff_true]
        rw [sub_pos, lt_div_iff₀ hu]
        exact hlo
      · rw [hscaled, add_sub_cancel, div_mul_cancel₀ _ hu.ne']
  generalize roundScaled f mant exp = scaled at *
  generalize roundKept f mant exp = kept at *
  generalize roundRem f mant exp = rem at *
  generalize roundDown f mant exp = M at *
  obtain ⟨N, hN⟩ : ∃ N, N = 2 ^ roundShift f mant exp := ⟨_, rfl⟩
  have hN0 : (0 : ℝ) < N := by
    rw [hN]
    positivity
  have hNr : (2 : ℝ) ^ roundShift f mant exp = N := by
    rw [hN]
    push_cast
    rfl
  rw [hNr] at hquantum
  rw [← hN] at hdm hrem hsticky ⊢
  have hremr : (rem : ℝ) + 1 ≤ N := by exact_mod_cast hrem
  have hdmr : (kept : ℝ) * N + rem = scaled := by exact_mod_cast hdm
  refine ⟨(rem + δ) / N, ⟨by positivity, ?_, ?_⟩, ?_, ?_, ?_⟩
  · rw [div_lt_one hN0]
    linarith
  · rw [hv, hv1, hxδ, hquantum, ← hdmr]
    field_simp
    ring
  · rw [div_pos_iff_of_pos_right hN0, ← hδs]
    constructor
    · intro h
      by_contra hn
      rw [not_or, not_lt, not_lt, Nat.le_zero] at hn
      rw [hn.1] at h
      norm_num at h
      linarith
    · rintro (h | h)
      · have : (1 : ℝ) ≤ rem := by exact_mod_cast h
        linarith
      · have : (0 : ℝ) ≤ rem := Nat.cast_nonneg _
        linarith
  · rw [← mul_div_assoc, one_lt_div hN0]
    exact (half_compared hδ0 hδ1 hδs fun h => (hsticky h).2).1
  · rw [← mul_div_assoc, div_eq_one_iff_eq hN0.ne']
    exact (half_compared hδ0 hδ1 hδs fun h => (hsticky h).2).2

end

/-- The exact magnitude among the powers of two. -/
theorem exact_bounds {mant : Nat} {exp : Int} {sticky : Bool} {x : ℝ} (hm : mant ≠ 0)
    (hx : ExactMagnitude mant exp sticky x) :
    (2 : ℝ) ^ (exp + (Nat.log2 mant : Int)) ≤ x ∧ x < (2 : ℝ) ^ (exp + (Nat.log2 mant : Int) + 1) := by
  have hu : (0 : ℝ) < 2 ^ exp := zpow_pos (by norm_num) _
  have hlo : ((2 : ℝ) ^ Nat.log2 mant) ≤ mant := by exact_mod_cast Nat.log2_self_le hm
  have hhi : (mant : ℝ) + 1 ≤ (2 : ℝ) ^ (Nat.log2 mant + 1) := by
    exact_mod_cast (Nat.lt_log2_self : mant < 2 ^ (mant.log2 + 1))
  have hbounds : (mant : ℝ) * 2 ^ exp ≤ x ∧ x < (mant + 1) * 2 ^ exp := by
    unfold ExactMagnitude at hx
    cases sticky with
    | false =>
      simp only [Bool.false_eq_true, if_false] at hx
      exact ⟨hx.ge, by rw [hx]; linarith⟩
    | true =>
      simp only [if_true] at hx
      exact ⟨hx.1.le, hx.2⟩
  constructor
  · refine le_trans ?_ hbounds.1
    rw [zpow_add₀ (by norm_num), mul_comm, zpow_natCast]
    exact mul_le_mul_of_nonneg_right hlo hu.le
  · refine hbounds.2.trans_le ?_
    rw [add_assoc, zpow_add₀ (by norm_num), mul_comm ((2 : ℝ) ^ exp)]
    refine mul_le_mul_of_nonneg_right ?_ hu.le
    exact_mod_cast hhi

/-- Tininess before rounding, by the exponent. -/
theorem exact_tiny {f : FpFormat} {mant : Nat} {exp : Int} {sticky : Bool} {x : ℝ} (hm : mant ≠ 0)
    (hx : ExactMagnitude mant exp sticky x) :
    exp + (Nat.log2 mant : Int) < f.minQuantum + (f.fracBits : Int) ↔
      x < (2 : ℝ) ^ (f.minQuantum + (f.fracBits : Int)) := by
  obtain ⟨hlo, hhi⟩ := exact_bounds hm hx
  constructor
  · intro h
    exact hhi.trans_le (zpow_le_zpow_right₀ (by norm_num) (by omega))
  · intro h
    exact (zpow_lt_zpow_iff_right₀ (by norm_num : (1 : ℝ) < 2)).mp (hlo.trans_lt h)

/-! ### The rounded magnitude -/

/-- Is a magnitude the part `ρ` of the way from one number to the next rounded to the next (10_state.md R56). -/
def RoundsToNext (rd : BitVec 2) (sign : Bool) (mag : Nat) (ρ : ℝ) : Prop :=
  if rd = 0#2 then 1 < 2 * ρ ∨ 2 * ρ = 1 ∧ mag % 2 = 1 else roundsAway rd sign = true ∧ 0 < ρ

theorem roundDown_parity (f : FpFormat) (mant : Nat) (exp : Int) :
    roundDown f mant exp % 2 = roundKept f mant exp % 2 := by
  have hp : 2 ^ f.fracBits = 2 * 2 ^ (f.fracBits - 1) := by
    rw [← Nat.pow_succ', Nat.succ_eq_add_one, Nat.sub_add_cancel (fracBits_pos f)]
  unfold roundDown
  rw [hp, Nat.mul_left_comm, Nat.mul_add_mod]

theorem roundsUp_iff {rd : BitVec 2} {sign odd sticky : Bool} {rem shift mag : Nat} {ρ : ℝ}
    (hodd : odd = true ↔ mag % 2 = 1) (hpos : 0 < ρ ↔ 0 < rem ∨ sticky = true)
    (hmore : 1 < 2 * ρ ↔ 2 ^ shift < 2 * rem ∨ 2 * rem = 2 ^ shift ∧ sticky = true)
    (htie : 2 * ρ = 1 ↔ 2 * rem = 2 ^ shift ∧ sticky = false) :
    roundsUp rd sign odd rem shift sticky = true ↔ RoundsToNext rd sign mag ρ := by
  have hrd : rd = 0#2 ∨ rd = 1#2 ∨ rd = 2#2 ∨ rd = 3#2 := by revert rd; decide
  unfold RoundsToNext
  rcases hrd with rfl | rfl | rfl | rfl
  · rw [if_pos rfl, hmore, htie, ← hodd]
    simp only [roundsUp, BitVec.toNat_ofNat, Nat.reducePow, Nat.zero_mod, Bool.or_eq_true, Bool.and_eq_true,
      decide_eq_true_eq]
    cases sticky <;> simp
  · rw [if_neg (by decide)]
    simp [roundsUp, roundsAway]
  · rw [if_neg (by decide), hpos]
    cases sign <;> simp [roundsUp, roundsAway]
  · rw [if_neg (by decide), hpos]
    cases sign <;> simp [roundsUp, roundsAway]

/-! ### The largest number -/

theorem maxExp_ge_two (f : FpFormat) : 2 ≤ f.maxExp := by cases f <;> decide

/-- The largest number and the unit above it, as magnitudes. -/
theorem magValue_top (f : FpFormat) :
    magMant f (magInf f - 1) = f.topMant ∧ magExp f (magInf f - 1) = f.topQuantum ∧
      magValue f (magInf f - 1) = (f.topMant : ℝ) * 2 ^ f.topQuantum ∧
      magValue f (magInf f) = (f.topMant : ℝ) * 2 ^ f.topQuantum + 2 ^ f.topQuantum := by
  have hp := Nat.two_pow_pos f.fracBits
  have h2 := maxExp_ge_two f
  have hpow : 2 ^ (f.fracBits + 1) = 2 * 2 ^ f.fracBits := Nat.pow_succ'
  have hq : f.topQuantum = f.minQuantum + ((f.maxExp - 2 : Nat) : Int) := by
    unfold FpFormat.topQuantum
    omega
  have hinf : magInf f = (f.maxExp - 2) * 2 ^ f.fracBits + 2 ^ (f.fracBits + 1) := by
    rw [hpow, ← Nat.add_mul, Nat.sub_add_cancel h2]
    rfl
  have htop : magInf f - 1 = (f.maxExp - 2) * 2 ^ f.fracBits + f.topMant := by
    rw [hinf]
    unfold FpFormat.topMant
    omega
  have hmant : f.topMant + 1 = 2 ^ (f.fracBits + 1) := Nat.sub_add_cancel (Nat.one_le_two_pow)
  have hdiv : (magInf f - 1) / 2 ^ f.fracBits = f.maxExp - 2 + 1 := by
    have h1 : f.topMant / 2 ^ f.fracBits = 1 := Nat.div_eq_of_lt_le (by omega) (by omega)
    rw [htop, Nat.mul_comm, Nat.mul_add_div hp, h1]
  have hmod : (magInf f - 1) % 2 ^ f.fracBits + 2 ^ f.fracBits = f.topMant := by
    have := Nat.div_add_mod (magInf f - 1) (2 ^ f.fracBits)
    rw [hdiv, htop, Nat.mul_add, Nat.mul_comm] at this
    rw [htop]
    omega
  have hge : ¬magInf f - 1 < 2 ^ f.fracBits := by
    rw [htop]
    omega
  refine ⟨?_, ?_, ?_, ?_⟩
  · rw [magMant, if_neg hge, hmod]
  · rw [magExp, hdiv, hq]
    rfl
  · rw [htop, hq]
    exact magValue_eq (.inr (by omega)) (by omega)
  · rw [hinf, hq, magValue_eq (.inr (by omega)) le_rfl, ← hmant]
    push_cast
    ring

theorem magInf_even (f : FpFormat) : magInf f % 2 = 0 ∧ 2 ≤ magInf f := by cases f <;> decide

/-! ### What a located magnitude is rounded to -/

/-- Every number is at most the one below, or at least the next. -/
theorem number_apart {f : FpFormat} {z : ℝ} (hz : IsNumber f z) (mag : Nat) : z ≤ magValue f mag ∨ magValue f (mag + 1) ≤ z := by
  have hmono := (magValue_strictMono f).monotone
  obtain ⟨k, -, rfl | rfl⟩ := (isNumber_iff f z).mp hz
  · rcases Nat.lt_or_ge mag k with hk | hk
    · exact .inr (hmono hk)
    · exact .inl (hmono hk)
  · have := magValue_nonneg f k
    have := magValue_nonneg f mag
    left
    linarith

section
variable {f : FpFormat} {x : ℝ} {mag : Nat} {ρ : ℝ} (h : Located f x mag ρ)
include h

theorem Located.between : magValue f mag ≤ x ∧ x < magValue f (mag + 1) := by
  have hlt := magValue_lt_succ f mag
  obtain ⟨h0, h1, rfl⟩ := h
  constructor <;> nlinarith

/-- Overflow is a rounded magnitude beyond the largest number. -/
theorem Located.overflows_iff {rd : BitVec 2} {sign : Bool} {y : ℝ} (hy : |y| = x) :
    Overflows f rd sign y ↔ magInf f ≤ mag ∨ magInf f ≤ mag + 1 ∧ RoundsToNext rd sign mag ρ := by
  obtain ⟨hlo, hhi⟩ := h.between
  obtain ⟨-, -, htop, hinf⟩ := magValue_top f
  obtain ⟨heven, h2⟩ := magInf_even f
  have hmono := magValue_strictMono f
  have hulp : (0 : ℝ) < 2 ^ f.topQuantum := zpow_pos (by norm_num) _
  unfold Overflows
  simp only [hy, ← htop]
  rw [← htop] at hinf
  generalize (2 : ℝ) ^ f.topQuantum = ulp at hulp hinf ⊢
  rcases Nat.lt_trichotomy (mag + 1) (magInf f) with hm | hm | hm
  · have hx : x < magValue f (magInf f - 1) := hhi.trans_le (hmono.monotone (by omega))
    refine ⟨fun ⟨h0, h1⟩ => ?_, fun hr => by omega⟩
    by_cases hrd : rd = 0#2
    · have := h0 hrd
      linarith
    · have := h1 hrd
      split at this <;> linarith
  · have hM : magInf f - 1 = mag := by omega
    have hodd : mag % 2 = 1 := by omega
    rw [hM] at hinf ⊢
    have hx := h.eq
    rw [hm, hinf] at hx
    have hρ0 := h.nonneg
    have hρ1 := h.lt_one
    have hx : x = magValue f mag + ρ * ulp := by rw [hx]; ring
    unfold RoundsToNext
    by_cases hrd : rd = 0#2
    · rw [if_pos hrd]
      simp only [hrd, hodd, not_true, false_imp_iff, and_true, true_imp_iff, ne_eq]
      rw [hx]
      constructor
      · intro hle
        have : 1 ≤ 2 * ρ := by
          by_contra hn
          nlinarith
        rcases lt_or_eq_of_le this with hlt | heq
        · exact .inr ⟨hm.ge, .inl hlt⟩
        · exact .inr ⟨hm.ge, .inr heq.symm⟩
      · intro hr
        have : 1 ≤ 2 * ρ := by
          rcases hr with hr | ⟨-, hr | hr⟩
          · omega
          · exact hr.le
          · exact hr.ge
        nlinarith
    · rw [if_neg hrd]
      simp only [hrd, false_imp_iff, true_and, ne_eq, not_false_eq_true, true_imp_iff]
      rw [hx]
      have hnle : ¬magInf f ≤ mag := by omega
      by_cases haway : roundsAway rd sign = true
      · simp only [haway, if_true, true_and, hnle, false_or, hm.ge]
        constructor
        · intro hlt
          by_contra hn
          nlinarith
        · intro hpos
          nlinarith
      · simp only [haway, if_false, hnle, false_or, false_and, and_false, iff_false, not_le, Bool.false_eq_true]
        nlinarith
  · have hge : magInf f ≤ mag := by omega
    have hx : magValue f (magInf f) ≤ x := (hmono.monotone hge).trans hlo
    rw [hinf] at hx
    refine ⟨fun _ => .inl hge, fun _ => ⟨fun _ => by linarith, fun _ => ?_⟩⟩
    split <;> linarith

/-- The next number toward zero. -/
theorem Located.nearest_down {z : ℝ} (hz : IsNumber f z) (hle : z ≤ x) : z ≤ magValue f mag :=
  (number_apart hz mag).resolve_right fun hn => absurd h.between.2 (by linarith)

/-- The next number away from zero. -/
theorem Located.nearest_up (hρ : 0 < ρ) {z : ℝ} (hz : IsNumber f z) (hle : x ≤ z) : magValue f (mag + 1) ≤ z := by
  refine (number_apart hz mag).resolve_left fun hn => ?_
  have hlt := magValue_lt_succ f mag
  have := h.eq
  nlinarith

/-- The nearest number, and of two equally near ones the even one. -/
theorem Located.nearest {mag' : Nat} (hdown : mag' = mag ∧ (2 * ρ < 1 ∨ 2 * ρ = 1 ∧ mag % 2 = 0) ∨
      mag' = mag + 1 ∧ (1 < 2 * ρ ∨ 2 * ρ = 1 ∧ mag % 2 = 1)) {z : ℝ} (hz : IsNumber f z) :
    |magValue f mag' - x| ≤ |z - x| ∧ (|z - x| = |magValue f mag' - x| → z ≠ magValue f mag' → mag' % 2 = 0) := by
  have hlt := magValue_lt_succ f mag
  have hx := h.eq
  have h0 := h.nonneg
  have h1 := h.lt_one
  have hz := number_apart hz mag
  have hd : 0 < magValue f (mag + 1) - magValue f mag := sub_pos.mpr hlt
  generalize hdd : magValue f (mag + 1) - magValue f mag = d at *
  have hw : magValue f (mag + 1) = magValue f mag + d := by linarith
  rcases hdown with ⟨rfl, hρ⟩ | ⟨rfl, hρ⟩
  · have hle : 2 * ρ ≤ 1 := hρ.elim le_of_lt fun h => h.1.le
    have hv : |magValue f mag' - x| = x - magValue f mag' := by
      rw [abs_sub_comm, abs_of_nonneg]
      nlinarith
    rcases hz with hz | hz
    · have hzx : |z - x| = x - z := by
        rw [abs_sub_comm, abs_of_nonneg]
        nlinarith
      rw [hv, hzx]
      exact ⟨by linarith, fun he hne => absurd (by linarith) hne⟩
    · have hzx : |z - x| = z - x := abs_of_nonneg (by nlinarith)
      rw [hv, hzx]
      refine ⟨by nlinarith, fun he hne => (hρ.resolve_left fun hlt => ?_).2⟩
      nlinarith
  · have hle : 1 ≤ 2 * ρ := hρ.elim le_of_lt fun h => h.1.ge
    have hv : |magValue f (mag + 1) - x| = magValue f (mag + 1) - x := abs_of_nonneg (by nlinarith)
    rcases hz with hz | hz
    · have hzx : |z - x| = x - z := by
        rw [abs_sub_comm, abs_of_nonneg]
        nlinarith
      rw [hv, hzx]
      refine ⟨by nlinarith, fun he hne => ?_⟩
      have := (hρ.resolve_left fun hlt => by nlinarith).2
      omega
    · have hzx : |z - x| = z - x := abs_of_nonneg (by nlinarith)
      rw [hv, hzx]
      exact ⟨by linarith, fun he hne => absurd (by linarith) hne⟩

end

theorem isNumber_neg {f : FpFormat} {z : ℝ} (h : IsNumber f z) : IsNumber f (-z) := by
  obtain ⟨mag, hlt, h⟩ := (isNumber_iff f z).mp h
  refine (isNumber_iff f (-z)).mpr ⟨mag, hlt, ?_⟩
  rcases h with rfl | rfl
  · exact .inr rfl
  · exact .inl (neg_neg _)

theorem isNumber_abs {f : FpFormat} {z : ℝ} (h : IsNumber f z) : IsNumber f |z| := by
  rcases abs_choice z with ha | ha <;> rw [ha]
  · exact h
  · exact isNumber_neg h

theorem fpSigned_parity (f : FpFormat) (s : Bool) (mag : Nat) : fpSigned f s mag % 2 = mag % 2 := by
  have hp : f.signBit = 2 * 2 ^ (f.expBits + f.fracBits - 1) := by
    have := fracBits_pos f
    unfold FpFormat.signBit
    rw [← Nat.pow_succ', Nat.succ_eq_add_one, Nat.sub_add_cancel (by omega)]
  cases s
  · rfl
  · show (f.signBit + mag) % 2 = _
    omega

/-- The signed number of a rounded magnitude. -/
noncomputable def signedValue (sign : Bool) (x : ℝ) : ℝ := if sign then -x else x

/-- A located magnitude, rounded in the direction of RD, with its sign. -/
theorem Located.rounds {f : FpFormat} {x : ℝ} {mag : Nat} {ρ : ℝ} (h : Located f x mag ρ) {rd : BitVec 2} {sign : Bool}
    {mag' : Nat} (hup : RoundsToNext rd sign mag ρ ∧ mag' = mag + 1 ∨ ¬RoundsToNext rd sign mag ρ ∧ mag' = mag) :
    Nearest f rd (fpSigned f sign mag') (signedValue sign x) (signedValue sign (magValue f mag')) ∧
      (mag' = mag + 1 → 0 < ρ) := by
  have h0 := h.nonneg
  obtain ⟨hlo, hhi⟩ := h.between
  have hdown : ∀ z, IsNumber f z → z ≤ x → z ≤ magValue f mag := fun z => h.nearest_down
  have hnearest : rd = 0#2 → ∀ z, IsNumber f z → |magValue f mag' - x| ≤ |z - x| ∧
      (|z - x| = |magValue f mag' - x| → z ≠ magValue f mag' → mag' % 2 = 0) := by
    intro hrd z hz
    refine h.nearest ?_ hz
    unfold RoundsToNext at hup
    rw [if_pos hrd] at hup
    rcases hup with ⟨hr, hm⟩ | ⟨hr, hm⟩
    · exact .inr ⟨hm, hr⟩
    · rw [not_or, not_lt, not_and'] at hr
      refine .inl ⟨hm, ?_⟩
      rcases lt_or_eq_of_le hr.1 with hlt | heq
      · exact .inl hlt
      · exact .inr ⟨heq, (Nat.mod_two_eq_zero_or_one mag).resolve_right fun ho => hr.2 ho heq⟩
  have hpos : mag' = mag + 1 → 0 < ρ := by
    intro hm
    obtain ⟨hr, -⟩ := hup.resolve_right fun hn => by omega
    unfold RoundsToNext at hr
    split at hr
    · rcases hr with hr | ⟨hr, -⟩ <;> linarith
    · exact hr.2
  have htoward : rd ≠ 0#2 → roundsAway rd sign = false → mag' = mag := by
    intro hrd ha
    refine (hup.resolve_left fun ⟨hr, _⟩ => ?_).2
    unfold RoundsToNext at hr
    rw [if_neg hrd, ha] at hr
    exact absurd hr.1 (by decide)
  have haway : rd ≠ 0#2 → roundsAway rd sign = true → x ≤ magValue f mag' ∧ ∀ z, IsNumber f z → x ≤ z →
      magValue f mag' ≤ z := by
    intro hrd ha
    unfold RoundsToNext at hup
    rw [if_neg hrd, ha] at hup
    rcases hup with ⟨⟨-, hρ⟩, rfl⟩ | ⟨hn, rfl⟩
    · exact ⟨hhi.le, fun z hz hle => h.nearest_up hρ hz hle⟩
    · have hρ : ρ = 0 := le_antisymm (not_lt.mp fun hρ => hn ⟨rfl, hρ⟩) h0
      have hx := h.eq
      rw [hρ, zero_mul, add_zero] at hx
      exact ⟨hx.le, fun z _ hle => hx ▸ hle⟩
  refine ⟨⟨fun hrd z hz => ?_, fun hrd => ?_, fun hrd => ?_, fun hrd => ?_⟩, hpos⟩
  · rw [fpSigned_parity]
    cases sign with
    | false => exact hnearest hrd z hz
    | true =>
      have hn := hnearest hrd (-z) (isNumber_neg hz)
      simp only [signedValue, if_true]
      rw [show -magValue f mag' - -x = -(magValue f mag' - x) by ring, abs_neg,
        show z - -x = -(-z - x) by ring, abs_neg]
      exact ⟨hn.1, fun he hne => hn.2 he fun hc => hne (by rw [← hc, neg_neg])⟩
  · have hm := htoward (by simp [hrd]) (by simp [hrd, roundsAway])
    have hv := magValue_nonneg f mag
    have habs (y : ℝ) (hy : 0 ≤ y) : |signedValue sign y| = y := by
      cases sign
      · exact abs_of_nonneg hy
      · exact (abs_neg y).trans (abs_of_nonneg hy)
    rw [hm, habs _ hv, habs _ (hv.trans hlo)]
    exact ⟨hlo, fun z hz hle => hdown _ (isNumber_abs hz) hle⟩
  · cases sign with
    | false => exact haway (by simp [hrd]) (by simp [hrd, roundsAway])
    | true =>
      have hm := htoward (by simp [hrd]) (by simp [hrd, roundsAway])
      simp only [signedValue, if_true]
      rw [hm]
      exact ⟨neg_le_neg hlo, fun z hz hle => neg_le.mp (hdown _ (isNumber_neg hz) (neg_le.mp hle))⟩
  · cases sign with
    | false =>
      have hm := htoward (by simp [hrd]) (by simp [hrd, roundsAway])
      simp only [signedValue, Bool.false_eq_true, if_false]
      rw [hm]
      exact ⟨hlo, fun z hz hle => hdown _ hz hle⟩
    | true =>
      obtain ⟨h1, h2⟩ := haway (by simp [hrd]) (by simp [hrd, roundsAway])
      simp only [signedValue, if_true]
      exact ⟨neg_le_neg h1, fun z hz hle => le_neg.mp (h2 _ (isNumber_neg hz) (le_neg.mp hle))⟩

end Sys2Proof.Machine
end

section
/-! The results of the floating-point operations: exact ones, infinities and zeroes, and correctly rounded ones
(44_fpop.md sections 1 to 8). -/

namespace Sys2Proof.Machine

/-! ### Rounded results -/

theorem signedValue_abs {sign : Bool} {x : ℝ} (h : 0 ≤ x) : |signedValue sign x| = x := by
  cases sign
  · exact abs_of_nonneg h
  · exact (abs_neg x).trans (abs_of_nonneg h)

theorem signedValue_inj {sign : Bool} {x y : ℝ} : signedValue sign x = signedValue sign y ↔ x = y := by
  cases sign <;> simp [signedValue]

theorem signedValue_magValue (f : FpFormat) (sign : Bool) (mag : Nat) :
    signedValue sign (magValue f mag) = numValue sign (magMant f mag) (magExp f mag) := by
  cases sign <;> simp [signedValue, magValue, numValue]

theorem overflowsToInf_iff (rd : BitVec 2) (sign : Bool) :
    overflowsToInf rd sign = true ↔ rd = 0#2 ∨ roundsAway rd sign = true := by
  revert rd sign
  decide

/-- What `fpRound` delivers is the exact magnitude correctly rounded. -/
theorem fpRound_rounded {f : FpFormat} (r : Rounding) (sign : Bool) {mant : Nat} {exp : Int} {sticky : Bool} {x : ℝ}
    (hm : mant ≠ 0) (hx : ExactMagnitude mant exp sticky x)
    (hs : sticky = true → f.fracBits + 1 ≤ Nat.log2 mant) :
    Rounded f r (signedValue sign x) (fpRound f r sign mant exp sticky) := by
  obtain ⟨ρ, hloc, hpos, hmore, htie⟩ := exact_located (f := f) hm hx hs
  have hx0 : 0 < x := (zpow_pos (by norm_num) _).trans_le (exact_bounds hm hx).1
  have hup : roundsUp r.rd sign (roundKept f mant exp % 2 == 1) (roundRem f mant exp) (roundShift f mant exp) sticky =
      true ↔ RoundsToNext r.rd sign (roundDown f mant exp) ρ :=
    roundsUp_iff (by rw [roundDown_parity, beq_iff_eq]) hpos hmore htie
  have htiny := exact_tiny (f := f) hm hx
  have hinexact : (decide (0 < roundRem f mant exp) || sticky) = true ↔ 0 < ρ := by simp [hpos]
  rw [fpRound_eq hm]
  generalize roundsUp r.rd sign (roundKept f mant exp % 2 == 1) (roundRem f mant exp) (roundShift f mant exp) sticky =
    up at hup ⊢
  generalize (decide (0 < roundRem f mant exp) || sticky) = inexact at hinexact ⊢
  generalize roundDown f mant exp = mag at hloc hup ⊢
  obtain ⟨mag', hmag'⟩ : ∃ mag', mag' = if up = true then mag + 1 else mag := ⟨_, rfl⟩
  rw [← hmag']
  have hnext : RoundsToNext r.rd sign mag ρ ∧ mag' = mag + 1 ∨ ¬RoundsToNext r.rd sign mag ρ ∧ mag' = mag := by
    rw [← hup, hmag']
    cases up <;> simp
  have hover : Overflows f r.rd sign (signedValue sign x) ↔ magInf f ≤ mag' := by
    rw [hloc.overflows_iff (signedValue_abs hx0.le)]
    rcases hnext with ⟨hr, rfl⟩ | ⟨hr, rfl⟩
    · simp only [hr, and_true]
      omega
    · simp [hr]
  obtain ⟨hnearest, hup0⟩ := hloc.rounds hnext
  obtain ⟨hlo, hhi⟩ := hloc.between
  have heven := (magInf_even f).2
  refine ⟨sign, ?_, fun ho => ?_, fun ho => ?_, ?_⟩
  · cases sign
    · simp [signedValue, hx0.le]
    · simp [signedValue, hx0]
  · obtain ⟨htm, hte, -, -⟩ := magValue_top f
    rw [roundedResult, if_pos (hover.mp ho)]
    refine ⟨rfl, fun hinf => ?_, fun hrd ha => ?_⟩
    · rw [if_pos ((overflowsToInf_iff ..).mpr hinf)]
      exact unpack_inf f sign
    · rw [if_neg fun hc => ((overflowsToInf_iff ..).mp hc).elim hrd (by simp [ha])]
      have := unpack_signed (f := f) (mag := magInf f - 1) (by omega) sign
      rwa [htm, hte] at this
  · have hlt : mag' < magInf f := by
      rw [hover] at ho
      omega
    rw [roundedResult, if_neg (Nat.not_le.mpr hlt)]
    have hne : magValue f mag' ≠ x ↔ 0 < ρ := by
      rcases hnext with ⟨-, rfl⟩ | ⟨-, rfl⟩
      · exact ⟨fun _ => hup0 rfl, fun _ => hhi.ne'⟩
      · have hgap := magValue_lt_succ f mag'
        have heq := hloc.eq
        have h0 := hloc.nonneg
        constructor
        · intro hne
          refine lt_of_le_of_ne h0 fun hρ => hne ?_
          rw [heq, ← hρ, zero_mul, add_zero]
        · intro hρ hc
          nlinarith
    refine ⟨signedValue sign (magValue f mag'), ⟨_, _, unpack_signed hlt sign, signedValue_magValue f sign mag'⟩,
      hnearest, rfl, ?_, ?_⟩
    · rw [ne_eq, signedValue_inj, ← ne_eq, hne]
      exact hinexact
    · rw [ne_eq, signedValue_inj, ← ne_eq, hne, signedValue_abs hx0.le, ← htiny, ← hinexact]
      simp
  · unfold roundedResult
    split
    · refine (fpSigned_bits ?_ sign).2.2.2
      have := magInf_lt f
      split <;> omega
    · next hlt => exact (fpSigned_bits ((Nat.not_le.mp hlt).trans (magInf_lt f)) sign).2.2.2

/-- A sign and a magnitude without bits cut off. -/
theorem fpRound_num {f : FpFormat} (r : Rounding) (s : Bool) {m : Nat} {e : Int} (h : numValue s m e ≠ 0) :
    Rounded f r (numValue s m e) (fpRound f r s m e false) := by
  have hm : m ≠ 0 := fun hm => h ((numValue_eq_zero s m e).mpr hm)
  have hx := fpRound_rounded (f := f) r s (x := (m : ℝ) * 2 ^ e) (sticky := false) hm rfl (by simp)
  have hv : numValue s m e = signedValue s ((m : ℝ) * 2 ^ e) := by cases s <;> simp [numValue, signedValue]
  rwa [hv]

/-! ### Sums, products, quotients -/

theorem numValue_int (t base : Int) : numValue (decide (t < 0)) t.natAbs base = (t : ℝ) * 2 ^ base := by
  have habs : ((t.natAbs : Nat) : ℝ) = |(t : ℝ)| := by rw [Nat.cast_natAbs, Int.cast_abs]
  unfold numValue
  rw [habs]
  by_cases h : t < 0
  · have hr : (t : ℝ) < 0 := by exact_mod_cast h
    simp [h, abs_of_neg hr]
  · have hr : (0 : ℝ) ≤ t := by exact_mod_cast not_lt.mp h
    simp [h, abs_of_nonneg hr]

/-- A sum in units of the smaller exponent. -/
theorem numValue_add (s1 s2 : Bool) (m1 m2 : Nat) (e1 e2 : Int) :
    numValue s1 m1 e1 + numValue s2 m2 e2 =
      ((fpAligned s1 m1 e1 (min e1 e2) + fpAligned s2 m2 e2 (min e1 e2) : Int) : ℝ) * 2 ^ min e1 e2 := by
  rw [← aligned_value s1 m1 (min_le_left e1 e2), ← aligned_value s2 m2 (min_le_right e1 e2)]
  push_cast
  ring

/-- The sum of two numbers that is not zero. -/
theorem fpSum_rounded (f : FpFormat) (r : Rounding) {s1 s2 : Bool} {m1 m2 : Nat} {e1 e2 : Int}
    (h : numValue s1 m1 e1 + numValue s2 m2 e2 ≠ 0) :
    Rounded f r (numValue s1 m1 e1 + numValue s2 m2 e2) (fpSum f r (.num s1 m1 e1) (.num s2 m2 e2)) := by
  unfold fpSum
  simp only []
  rw [numValue_add] at h ⊢
  generalize fpAligned s1 m1 e1 (min e1 e2) + fpAligned s2 m2 e2 (min e1 e2) = total at h ⊢
  rw [if_neg fun h0 => h (by simp [h0])]
  rw [← numValue_int] at h ⊢
  exact fpRound_num r _ h

/-- The sum of two numbers that is zero. -/
theorem fpSum_zero (f : FpFormat) (r : Rounding) {s1 s2 : Bool} {m1 m2 : Nat} {e1 e2 : Int}
    (h : numValue s1 m1 e1 + numValue s2 m2 e2 = 0) :
    fpSum f r (.num s1 m1 e1) (.num s2 m2 e2) = ⟨fpSigned f (if s1 = s2 then s1 else r.rd == 3#2) 0, {}⟩ := by
  rw [numValue_add] at h
  have hu : (2 : ℝ) ^ min e1 e2 ≠ 0 := (zpow_pos (by norm_num) _).ne'
  have h0 : fpAligned s1 m1 e1 (min e1 e2) + fpAligned s2 m2 e2 (min e1 e2) = 0 := by
    exact_mod_cast (mul_eq_zero.mp h).resolve_right hu
  exact if_pos h0

theorem numValue_mul (s1 s2 : Bool) (m1 m2 : Nat) (e1 e2 : Int) :
    numValue (s1 ^^ s2) (m1 * m2) (e1 + e2) = numValue s1 m1 e1 * numValue s2 m2 e2 := by
  unfold numValue
  rw [zpow_add₀ (by norm_num)]
  cases s1 <;> cases s2 <;> simp <;> ring

theorem numValue_div (s1 s2 : Bool) (m1 m2 : Nat) (e1 e2 : Int) :
    signedValue (s1 ^^ s2) ((m1 : ℝ) / m2 * 2 ^ (e1 - e2)) = numValue s1 m1 e1 / numValue s2 m2 e2 := by
  unfold numValue
  rw [zpow_sub₀ (by norm_num)]
  cases s1 <;> cases s2 <;> simp [signedValue, neg_div, div_neg] <;> ring

/-- Enough bits of a quotient to round, and whether a remainder is left. -/
theorem quotient_exact {m1 m2 : Nat} (h1 : m1 ≠ 0) (h2 : m2 ≠ 0) (bits : Nat) (e : Int) :
    m1 * 2 ^ (bits + 4 + Nat.log2 m2) / m2 ≠ 0 ∧
      bits + 1 ≤ Nat.log2 (m1 * 2 ^ (bits + 4 + Nat.log2 m2) / m2) ∧
      ExactMagnitude (m1 * 2 ^ (bits + 4 + Nat.log2 m2) / m2) (e - ((bits + 4 + Nat.log2 m2 : Nat) : Int))
        (decide (m1 * 2 ^ (bits + 4 + Nat.log2 m2) % m2 ≠ 0)) ((m1 : ℝ) / m2 * 2 ^ e) := by
  have hpos : 0 < m2 := Nat.pos_of_ne_zero h2
  have hge : 2 ^ (bits + 3) ≤ m1 * 2 ^ (bits + 4 + Nat.log2 m2) / m2 := by
    rw [Nat.le_div_iff_mul_le hpos]
    calc 2 ^ (bits + 3) * m2 ≤ 2 ^ (bits + 3) * 2 ^ (Nat.log2 m2 + 1) :=
          Nat.mul_le_mul_left _ (Nat.lt_log2_self).le
      _ = 1 * 2 ^ (bits + 4 + Nat.log2 m2) := by
          rw [← Nat.pow_add, Nat.one_mul]
          congr 1
          omega
      _ ≤ _ := Nat.mul_le_mul_right _ (Nat.one_le_iff_ne_zero.mpr h1)
  have hne : m1 * 2 ^ (bits + 4 + Nat.log2 m2) / m2 ≠ 0 := (lt_of_lt_of_le (Nat.two_pow_pos _) hge).ne'
  refine ⟨hne, ?_, ?_⟩
  · exact ((Nat.le_log2 hne).mpr hge).trans' (by omega)
  · generalize bits + 4 + Nat.log2 m2 = k
    have hm2 : (0 : ℝ) < m2 := by exact_mod_cast hpos
    have hu : (0 : ℝ) < 2 ^ (e - (k : Int)) := zpow_pos (by norm_num) _
    have hx : (m1 : ℝ) / m2 * 2 ^ e = (m1 * 2 ^ k : ℝ) / m2 * 2 ^ (e - (k : Int)) := by
      rw [show e = (k : Int) + (e - (k : Int)) by ring, zpow_add₀ (by norm_num), zpow_natCast]
      simp only [add_sub_cancel_left]
      ring
    have hdm : ((m1 * 2 ^ k / m2 : Nat) : ℝ) * m2 + ((m1 * 2 ^ k % m2 : Nat) : ℝ) = m1 * 2 ^ k := by
      exact_mod_cast Nat.div_add_mod' (m1 * 2 ^ k) m2
    have hmod : ((m1 * 2 ^ k % m2 : Nat) : ℝ) < m2 := by exact_mod_cast Nat.mod_lt _ hpos
    rw [hx, ← hdm]
    generalize m1 * 2 ^ k / m2 = q
    generalize m1 * 2 ^ k % m2 = rem at hmod ⊢
    unfold ExactMagnitude
    by_cases h0 : rem = 0
    · simp [h0, hm2.ne']
    · have hrem : (0 : ℝ) < rem := by exact_mod_cast Nat.pos_of_ne_zero h0
      simp only [ne_eq, h0, not_false_eq_true, decide_true, if_true]
      constructor
      · refine mul_lt_mul_of_pos_right ?_ hu
        rw [lt_div_iff₀ hm2]
        linarith
      · refine mul_lt_mul_of_pos_right ?_ hu
        rw [div_lt_iff₀ hm2]
        linarith

/-! ### Square roots -/

theorem isqrtFrom_spec (n : Nat) : ∀ k root, root * root ≤ n → n < (root + 2 ^ k) * (root + 2 ^ k) →
    isqrtFrom n k root * isqrtFrom n k root ≤ n ∧ n < (isqrtFrom n k root + 1) * (isqrtFrom n k root + 1) := by
  intro k
  induction k with
  | zero => exact fun root hlo hhi => ⟨hlo, hhi⟩
  | succ k ih =>
    intro root hlo hhi
    unfold isqrtFrom
    simp only []
    split
    · next h => exact ih _ h (by rwa [Nat.add_assoc, ← Nat.two_mul, ← Nat.pow_succ'])
    · next h => exact ih _ hlo (Nat.not_le.mp h)

theorem isqrt_spec (n : Nat) : isqrt n * isqrt n ≤ n ∧ n < (isqrt n + 1) * (isqrt n + 1) := by
  refine isqrtFrom_spec n _ 0 (Nat.zero_le _) ?_
  rw [Nat.zero_add, ← Nat.pow_add]
  exact Nat.lt_log2_self.trans_le (Nat.pow_le_pow_right (by decide) (by omega))

/-- Enough bits of a square root to round, and whether a remainder is left. -/
theorem root_exact {m : Nat} (hm : m ≠ 0) (bits : Nat) (e : Int) :
    let k := 2 * (bits + 4) + (e % 2).toNat
    let root := isqrt (m * 2 ^ k)
    root ≠ 0 ∧ bits + 1 ≤ Nat.log2 root ∧
      ExactMagnitude root ((e - (k : Int)) / 2) (decide (root * root ≠ m * 2 ^ k)) (Real.sqrt ((m : ℝ) * 2 ^ e)) := by
  intro k root
  obtain ⟨hlo, hhi⟩ := isqrt_spec (m * 2 ^ k)
  have hge : 2 ^ (bits + 4) ≤ root := by
    by_contra hlt
    have hle : root + 1 ≤ 2 ^ (bits + 4) := Nat.not_le.mp hlt
    have hn : 2 ^ k ≤ m * 2 ^ k := Nat.le_mul_of_pos_left _ (Nat.pos_of_ne_zero hm)
    have hk : 2 ^ (bits + 4) * 2 ^ (bits + 4) ≤ 2 ^ k := by
      rw [← Nat.pow_add]
      exact Nat.pow_le_pow_right (by decide) (by omega)
    exact absurd (hhi.trans_le (Nat.mul_le_mul hle hle)) (Nat.not_lt.mpr (hk.trans hn))
  have hne : root ≠ 0 := (lt_of_lt_of_le (Nat.two_pow_pos _) hge).ne'
  refine ⟨hne, ((Nat.le_log2 hne).mpr hge).trans' (by omega), ?_⟩
  have hu : (0 : ℝ) < 2 ^ ((e - (k : Int)) / 2) := zpow_pos (by norm_num) _
  have hx : Real.sqrt ((m : ℝ) * 2 ^ e) = Real.sqrt ((m * 2 ^ k : Nat) : ℝ) * 2 ^ ((e - (k : Int)) / 2) := by
    have hsq : (m : ℝ) * 2 ^ e = ((m * 2 ^ k : Nat) : ℝ) * (2 ^ ((e - (k : Int)) / 2)) ^ 2 := by
      push_cast
      rw [mul_assoc, ← zpow_natCast, ← zpow_natCast, ← zpow_mul, ← zpow_add₀ (by norm_num)]
      congr 2
      omega
    rw [hsq, Real.sqrt_mul (Nat.cast_nonneg _), Real.sqrt_sq hu.le]
  have hlor : (root : ℝ) * root ≤ ((m * 2 ^ k : Nat) : ℝ) := by exact_mod_cast hlo
  have hhir : ((m * 2 ^ k : Nat) : ℝ) < (root + 1) * (root + 1) := by exact_mod_cast hhi
  have hroot : (0 : ℝ) ≤ root := Nat.cast_nonneg _
  rw [hx]
  unfold ExactMagnitude
  by_cases heq : root * root = m * 2 ^ k
  · have : ((m * 2 ^ k : Nat) : ℝ) = root * root := by exact_mod_cast heq.symm
    simp only [heq, ne_eq, not_true, decide_false, Bool.false_eq_true, if_false]
    rw [this, Real.sqrt_mul_self hroot]
  · have hlt : (root : ℝ) * root < ((m * 2 ^ k : Nat) : ℝ) := by exact_mod_cast lt_of_le_of_ne hlo heq
    simp only [ne_eq, heq, not_false_eq_true, decide_true, if_true]
    constructor
    · exact mul_lt_mul_of_pos_right (Real.lt_sqrt_of_sq_lt (by rw [sq]; exact hlt)) hu
    · refine mul_lt_mul_of_pos_right ?_ hu
      rw [Real.sqrt_lt' (by linarith), sq]
      exact hhir

/-! ### Conversions to integers -/

theorem invalidInt_eq (sign : Bool) : fpInvalidInt sign = ⟨if sign then 2 ^ 31 else 2 ^ 31 - 1, { nv := true }⟩ := by
  cases sign <;> rfl

/-- The whole part of a magnitude, and whether that is all of it. -/
theorem whole_floor (m : Nat) (e : Int) :
    ⌊(m : ℝ) * 2 ^ e⌋ = ((m * 2 ^ e.toNat / 2 ^ (-e).toNat : Nat) : Int) ∧
      (m * 2 ^ e.toNat % 2 ^ (-e).toNat = 0 ↔
        (((m * 2 ^ e.toNat / 2 ^ (-e).toNat : Nat) : Int) : ℝ) = (m : ℝ) * 2 ^ e) := by
  have hu : (0 : ℝ) < 2 ^ (-e).toNat := by positivity
  have hx : (m : ℝ) * 2 ^ e * 2 ^ (-e).toNat = ((m * 2 ^ e.toNat : Nat) : ℝ) := by
    push_cast
    rw [mul_assoc, ← zpow_natCast, ← zpow_natCast, ← zpow_add₀ (by norm_num)]
    congr 2
    omega
  have hdm : ((m * 2 ^ e.toNat / 2 ^ (-e).toNat : Nat) : ℝ) * 2 ^ (-e).toNat +
      ((m * 2 ^ e.toNat % 2 ^ (-e).toNat : Nat) : ℝ) = ((m * 2 ^ e.toNat : Nat) : ℝ) := by
    exact_mod_cast Nat.div_add_mod' (m * 2 ^ e.toNat) (2 ^ (-e).toNat)
  have hmod : ((m * 2 ^ e.toNat % 2 ^ (-e).toNat : Nat) : ℝ) < 2 ^ (-e).toNat := by
    exact_mod_cast Nat.mod_lt (m * 2 ^ e.toNat) (Nat.two_pow_pos (-e).toNat)
  rw [← hx] at hdm
  generalize m * 2 ^ e.toNat / 2 ^ (-e).toNat = whole at *
  generalize m * 2 ^ e.toNat % 2 ^ (-e).toNat = rem at *
  have hrem : (0 : ℝ) ≤ rem := Nat.cast_nonneg _
  generalize (2 : ℝ) ^ (-e).toNat = u at *
  generalize (m : ℝ) * 2 ^ e = x at *
  refine ⟨Int.floor_eq_iff.mpr ⟨?_, ?_⟩, fun h => ?_, fun h => ?_⟩
  · rw [Int.cast_natCast]
    exact le_of_mul_le_mul_right (by linarith) hu
  · rw [Int.cast_natCast]
    exact lt_of_mul_lt_mul_right (by nlinarith) hu.le
  · rw [h, Nat.cast_zero, add_zero] at hdm
    rw [Int.cast_natCast]
    exact mul_right_cancel₀ hu.ne' hdm
  · rw [Int.cast_natCast] at h
    rw [h] at hdm
    have : (rem : ℝ) = 0 := by linarith
    exact_mod_cast this

/-- A number that is not out of range truncates toward zero. -/
theorem fpToInt_num {f : FpFormat} {a m : Nat} {e : Int} {sign : Bool} (h : fpUnpack f a = .num sign m e) {t : Int}
    (ht : t = if sign then -⌊|numValue sign m e|⌋ else ⌊|numValue sign m e|⌋) :
    (-(2 ^ 31) ≤ t ∧ t < 2 ^ 31 → fpToInt f a = ⟨(BitVec.ofInt 32 t).toNat, { nx := decide ((t : ℝ) ≠ numValue sign m e) }⟩) ∧
      (¬(-(2 ^ 31) ≤ t ∧ t < 2 ^ 31) → fpToInt f a = fpInvalidInt sign) := by
  have hx0 : (0 : ℝ) ≤ (m : ℝ) * 2 ^ e := by positivity
  have hsigned : numValue sign m e = signedValue sign ((m : ℝ) * 2 ^ e) := by
    cases sign <;> simp [numValue, signedValue]
  obtain ⟨hfloor, hexact⟩ := whole_floor m e
  rw [hsigned, signedValue_abs hx0, hfloor] at ht
  unfold fpToInt
  rw [h]
  simp only []
  generalize m * 2 ^ e.toNat / 2 ^ (-e).toNat = whole at *
  have hrange : (if sign = true then 2 ^ 31 else 2 ^ 31 - 1) < whole ↔ ¬(-(2 ^ 31) ≤ t ∧ t < 2 ^ 31) := by
    cases sign
    · simp only [Bool.false_eq_true, if_false] at ht ⊢
      omega
    · simp only [if_true] at ht ⊢
      omega
  have hinexact : (!decide (m * 2 ^ e.toNat % 2 ^ (-e).toNat = 0)) = decide ((t : ℝ) ≠ numValue sign m e) := by
    have hcast : (t : ℝ) = signedValue sign (((whole : Nat) : Int) : ℝ) := by
      rw [ht]
      cases sign
      · rfl
      · exact Int.cast_neg _
    rw [← decide_not]
    exact decide_eq_decide.mpr (by rw [hsigned, hcast, ne_eq, signedValue_inj, hexact])
  rw [hinexact, ← ht]
  exact ⟨fun hfits => if_neg fun hc => hrange.mp hc hfits, fun hfits => if_pos (hrange.mpr hfits)⟩

/-- Settles O52. -/
theorem roundedResults : Obligations.RoundedResults := by
  unfold Obligations.RoundedResults
  refine ⟨fun f g r a b s1 s2 x y hx hy => ?_, fun g r i => ⟨fun hi => ?_, fun hi => ?_⟩, fun f a sign => ?_⟩
  · obtain ⟨m1, e1, hu1, rfl⟩ := (standsFor_iff ..).mp hx
    obtain ⟨m2, e2, hu2, rfl⟩ := (standsFor_iff ..).mp hy
    have hn1 := unpack_ne_nan_of_num hu1
    have hn2 := unpack_ne_nan_of_num hu2
    have hz1 := numValue_eq_zero s1 m1 e1
    have hz2 := numValue_eq_zero s2 m2 e2
    refine ⟨fun h => ?_, fun h => ?_, fun h => ?_, fun h1 h2 => ?_, fun h => ?_, fun h => ?_⟩
    · rw [fpAdd_eq hn1 hn2, hu1, hu2]
      exact fpSum_rounded f r h
    · rw [fpSub_eq hn1 hn2, hu1, hu2]
      rw [sub_eq_add_neg, ← numValue_negate] at h ⊢
      exact fpSum_rounded f r h
    · rw [fpMul_eq hn1 hn2, hu1, hu2]
      rw [← numValue_mul] at h ⊢
      exact fpRound_num r _ h
    · rw [fpDiv_eq hn1 hn2, hu1, hu2]
      have hm1 := hz1.not.mp h1
      have hm2 := hz2.not.mp h2
      obtain ⟨hne, hlog, hexact⟩ := quotient_exact hm1 hm2 f.fracBits (e1 - e2)
      rw [← numValue_div, fpQuotient, if_neg hm2]
      exact fpRound_rounded r _ hne hexact fun _ => hlog
    · have hs : s1 = false := by
        cases s1
        · rfl
        · exact absurd (numValue_neg.mpr ⟨rfl, hz1.not.mp h.ne'⟩) h.not_gt
      subst hs
      have hm1 := hz1.not.mp h.ne'
      obtain ⟨hne, hlog, hexact⟩ := root_exact hm1 f.fracBits e1
      have hv : numValue false m1 e1 = (m1 : ℝ) * 2 ^ e1 := by simp [numValue]
      rw [fpSqrt, hu1, hv]
      simp only [hm1, if_false, Bool.false_eq_true]
      exact fpRound_rounded r false hne hexact fun _ => hlog
    · rw [fpConvert, hu1]
      exact fpRound_num r _ h
  · have hv : (i.toInt : ℝ) = numValue i.msb i.toInt.natAbs 0 := by
      rw [BitVec.msb_eq_toInt, numValue_int, zpow_zero, mul_one]
    have h0 : (i.toInt : ℝ) ≠ 0 := by
      intro hc
      have hc : i.toInt = 0 := by exact_mod_cast hc
      exact hi (BitVec.eq_of_toInt_eq (hc.trans (by decide)))
    rw [hv] at h0 ⊢
    exact fpRound_num r _ h0
  · rw [hi]
    exact fpRound_zero ..
  · intro invalid
    have hinvalid : fpInvalidInt sign = invalid := invalidInt_eq sign
    refine ⟨fun x t hx ht => ?_, fun h => ?_, fun ⟨q, n, h⟩ hs => ?_⟩
    · obtain ⟨m, e, hu, rfl⟩ := (standsFor_iff ..).mp hx
      obtain ⟨hfits, hout⟩ := fpToInt_num hu ht
      refine ⟨fun h => ?_, fun h => (hout h).trans hinvalid⟩
      rw [hfits h]
      exact ⟨rfl, rfl, decide_eq_true_iff⟩
    · rw [← hinvalid, fpToInt, h]
    · obtain ⟨rfl, -⟩ := unpack_nan_bits h
      rw [← hinvalid, fpToInt, h]
      simp only [hs]
      cases sign <;> rfl

/-! ### Exact results -/

/-- The largest number bounds the numbers. -/
theorem isNumber_le_top {f : FpFormat} {x : ℝ} (h : IsNumber f x) : |x| ≤ (f.topMant : ℝ) * 2 ^ f.topQuantum := by
  obtain ⟨-, -, htop, -⟩ := magValue_top f
  obtain ⟨mag, hlt, hx⟩ := (isNumber_iff f x).mp h
  have habs : |x| = magValue f mag := by
    have h0 := magValue_nonneg f mag
    rcases hx with rfl | rfl
    · exact abs_of_nonneg h0
    · rw [abs_neg, abs_of_nonneg h0]
  rw [habs, ← htop]
  exact (magValue_strictMono f).monotone (Nat.le_sub_one_of_lt hlt)

/-- A number of the format, below none of its normal numbers, is its own rounded result. -/
theorem Rounded.exact {f : FpFormat} {r : Rounding} {x : ℝ} {res : FpResult} (h : Rounded f r x res)
    (hx : IsNumber f x) (hn : (2 : ℝ) ^ (f.minQuantum + (f.fracBits : Int)) ≤ |x|) :
    res.flags = {} ∧ res.bits < 2 * f.signBit ∧ ∃ sign, (sign = true ↔ x < 0) ∧ StandsFor f res.bits sign x := by
  obtain ⟨sign, hsign, -, hround, hbits⟩ := h
  have htop := isNumber_le_top hx
  have hulp : (0 : ℝ) < 2 ^ f.topQuantum := zpow_pos (by norm_num) _
  have hover : ¬Overflows f r.rd sign x := by
    rintro ⟨h0, h1⟩
    by_cases hrd : r.rd = 0#2
    · have := h0 hrd
      linarith
    · have := h1 hrd
      split at this <;> linarith
  obtain ⟨y, hy, ⟨hn0, hn1, hn2, hn3⟩, hflags, hnx, huf⟩ := hround hover
  have hxy : y = x := by
    have hrd : r.rd = 0#2 ∨ r.rd = 1#2 ∨ r.rd = 2#2 ∨ r.rd = 3#2 := by
      generalize r.rd = rd
      revert rd
      decide
    rcases hrd with hrd | hrd | hrd | hrd
    · have := (hn0 hrd x hx).1
      rw [sub_self, abs_zero] at this
      exact sub_eq_zero.mp (abs_nonpos_iff.mp this)
    · obtain ⟨hle, hge⟩ := hn1 hrd
      have habs : |y| = |x| := le_antisymm hle (hge x hx le_rfl)
      have hpos : 0 < |x| := (zpow_pos (by norm_num) _).trans_le hn
      obtain ⟨m, e, -, rfl⟩ := (standsFor_iff ..).mp hy
      have hm : m ≠ 0 := fun hm => by
        rw [(numValue_eq_zero ..).mpr hm, abs_zero] at habs
        exact hpos.ne habs
      have hneg : numValue sign m e < 0 ↔ x < 0 := by
        rw [numValue_neg, hsign]
        simp [hm]
      rcases abs_eq_abs.mp habs with h | h
      · exact h
      · rw [h] at hneg ⊢
        have hx0 : x ≠ 0 := abs_pos.mp hpos
        rcases lt_or_gt_of_ne hx0 with hlt | hgt
        · have := hneg.mpr hlt
          linarith
        · have := hneg.mp (by linarith)
          linarith
    · obtain ⟨hle, hge⟩ := hn2 hrd
      exact le_antisymm (hge x hx le_rfl) hle
    · obtain ⟨hle, hge⟩ := hn3 hrd
      exact le_antisymm hle (hge x hx le_rfl)
  have hnx : res.flags.nx = false := by
    rw [← Bool.not_eq_true, hnx]
    exact not_not.mpr hxy
  have huf : res.flags.uf = false := by
    rw [← Bool.not_eq_true, huf]
    exact fun hc => absurd hc.1 (not_lt.mpr hn)
  refine ⟨by rw [hflags, hnx, huf], hbits, sign, hsign, hxy ▸ hy⟩

/-- A significand of few bits, scaled within the range of the normal numbers, is a number of the format. -/
theorem isNumber_of_bounds {f : FpFormat} (s : Bool) {m : Nat} {e : Int} (hm : m ≠ 0) (hl : Nat.log2 m ≤ f.fracBits)
    (hlo : f.minQuantum + (f.fracBits : Int) ≤ e + (Nat.log2 m : Int))
    (hhi : e + (Nat.log2 m : Int) ≤ f.topQuantum + (f.fracBits : Int)) :
    IsNumber f (numValue s m e) ∧ (2 : ℝ) ^ (f.minQuantum + (f.fracBits : Int)) ≤ |numValue s m e| := by
  have h2 := maxExp_ge_two f
  have hmlo : 2 ^ Nat.log2 m ≤ m := Nat.log2_self_le hm
  have hmhi : m < 2 ^ (Nat.log2 m + 1) := Nat.lt_log2_self
  obtain ⟨d, hd⟩ := Nat.exists_eq_add_of_le hl
  obtain ⟨q, hq⟩ := Int.eq_ofNat_of_zero_le (show 0 ≤ e - (d : Int) - f.minQuantum by omega)
  have hkept : 2 ^ f.fracBits ≤ m * 2 ^ d := by
    rw [hd, Nat.pow_add]
    exact Nat.mul_le_mul_right _ hmlo
  have hkept' : m * 2 ^ d < 2 ^ (f.fracBits + 1) := by
    rw [show f.fracBits + 1 = Nat.log2 m + 1 + d by omega, Nat.pow_add]
    exact Nat.mul_lt_mul_of_pos_right hmhi (Nat.two_pow_pos _)
  have hv : (m : ℝ) * 2 ^ e = magValue f (q * 2 ^ f.fracBits + m * 2 ^ d) := by
    rw [magValue_eq (.inr hkept) hkept'.le]
    push_cast
    rw [mul_assoc, ← zpow_natCast, ← zpow_add₀ (by norm_num)]
    congr 2
    omega
  have hinf : q * 2 ^ f.fracBits + m * 2 ^ d < magInf f := by
    have hqle : q + 2 ≤ f.maxExp := by
      unfold FpFormat.topQuantum at hhi
      omega
    have hpow : 2 ^ (f.fracBits + 1) = 2 * 2 ^ f.fracBits := Nat.pow_succ'
    have := Nat.mul_le_mul_right (2 ^ f.fracBits) hqle
    rw [Nat.add_mul] at this
    unfold magInf
    omega
  have hsigned : numValue s m e = signedValue s ((m : ℝ) * 2 ^ e) := by cases s <;> simp [numValue, signedValue]
  rw [hsigned, signedValue_abs (by positivity)]
  refine ⟨(isNumber_iff ..).mpr ⟨_, hinf, ?_⟩, ?_⟩
  · rw [hv]
    cases s
    · exact .inl rfl
    · exact .inr rfl
  · calc (2 : ℝ) ^ (f.minQuantum + (f.fracBits : Int)) ≤ 2 ^ (e + (Nat.log2 m : Int)) :=
          zpow_le_zpow_right₀ (by norm_num) hlo
      _ = 2 ^ Nat.log2 m * 2 ^ e := by rw [zpow_add₀ (by norm_num), mul_comm, zpow_natCast]
      _ ≤ (m : ℝ) * 2 ^ e := mul_le_mul_of_nonneg_right (by exact_mod_cast hmlo) (by positivity)

/-- The result is exactly `mant * 2 ^ exp`, and raises nothing. -/
def HoldsExactly (g : FpFormat) (x : FpResult) (sign : Bool) (mant : Nat) (exp : Int) : Prop :=
  x.flags = {} ∧ x.bits < 2 * g.signBit ∧
    ∃ (m : Nat) (e : Int), fpUnpack g x.bits = .num sign m e ∧
      ∀ k : Int, k ≤ e → k ≤ exp → m * 2 ^ (e - k).toNat = mant * 2 ^ (exp - k).toNat

theorem magnitude_in_units {m mant : Nat} {e exp k : Int} (hv : (m : ℝ) * 2 ^ e = (mant : ℝ) * 2 ^ exp) (hk : k ≤ e)
    (hk' : k ≤ exp) : m * 2 ^ (e - k).toNat = mant * 2 ^ (exp - k).toNat := by
  have hu : (2 : ℝ) ^ k ≠ 0 := (zpow_pos (by norm_num) _).ne'
  have hpow (a : Int) (h : k ≤ a) : (2 : ℝ) ^ (a - k).toNat * 2 ^ k = 2 ^ a := by
    rw [← zpow_natCast, ← zpow_add₀ (by norm_num)]
    congr 1
    omega
  have hr : (m : ℝ) * 2 ^ (e - k).toNat = (mant : ℝ) * 2 ^ (exp - k).toNat := by
    refine mul_right_cancel₀ hu ?_
    rw [mul_assoc, mul_assoc, hpow e hk, hpow exp hk', hv]
  exact_mod_cast hr

/-- Rounding a number that the format holds changes nothing. -/
theorem fpRound_holds {g : FpFormat} (r : Rounding) (s : Bool) {m : Nat} {e : Int}
    (h : m ≠ 0 → Nat.log2 m ≤ g.fracBits ∧ g.minQuantum + (g.fracBits : Int) ≤ e + (Nat.log2 m : Int) ∧
      e + (Nat.log2 m : Int) ≤ g.topQuantum + (g.fracBits : Int)) :
    HoldsExactly g (fpRound g r s m e false) s m e := by
  by_cases hm : m = 0
  · subst hm
    have h0 : 0 < magInf g := Nat.lt_of_lt_of_le (by decide) (magInf_even g).2
    rw [fpRound_zero]
    refine ⟨rfl, (fpSigned_bits (h0.trans (magInf_lt g)) s).2.2.2, _, _, unpack_signed h0 s, fun k _ _ => ?_⟩
    have hmant : magMant g 0 = 0 := if_pos (Nat.two_pow_pos _)
    rw [hmant, Nat.zero_mul, Nat.zero_mul]
  · obtain ⟨hl, hlo, hhi⟩ := h hm
    obtain ⟨hnum, hnormal⟩ := isNumber_of_bounds s hm hl hlo hhi
    obtain ⟨hflags, hbits, sign, hsign, m', e', hu, hv⟩ :=
      (fpRound_num r s ((numValue_eq_zero s m e).not.mpr hm)).exact hnum hnormal
    have hs : sign = s := by
      rw [Bool.eq_iff_iff, hsign, numValue_neg]
      simp [hm]
    subst hs
    refine ⟨hflags, hbits, m', e', hu, fun k hk hk' => magnitude_in_units ?_ hk hk'⟩
    have hv : numValue sign m e = numValue sign m' e' := hv
    cases sign <;> simpa [numValue] using hv.symm

/-- The range of the significands and exponents of a format. -/
theorem unpack_num_bounds {f : FpFormat} {a m : Nat} {e : Int} {s : Bool} (h : fpUnpack f a = .num s m e) :
    m < 2 ^ (f.fracBits + 1) ∧ f.minQuantum ≤ e ∧ e ≤ f.topQuantum := by
  obtain ⟨mag, hlt, rfl, rfl⟩ := unpack_num_magnitude h
  have hp := Nat.two_pow_pos f.fracBits
  have h2 := maxExp_ge_two f
  have hdiv : mag / 2 ^ f.fracBits < f.maxExp := by rwa [Nat.div_lt_iff_lt_mul hp]
  have hmod := Nat.mod_lt mag hp
  have hpow : 2 ^ (f.fracBits + 1) = 2 * 2 ^ f.fracBits := Nat.pow_succ'
  unfold magMant magExp FpFormat.topQuantum
  refine ⟨?_, by omega, by omega⟩
  split <;> omega

theorem single_range :
    FpFormat.fracBits .single = 23 ∧ FpFormat.minQuantum .single = -149 ∧ FpFormat.topQuantum .single = 104 := by decide

theorem double_range :
    FpFormat.fracBits .double = 52 ∧ FpFormat.minQuantum .double = -1074 ∧ FpFormat.topQuantum .double = 971 := by decide

theorem quad_range :
    FpFormat.fracBits .quad = 112 ∧ FpFormat.minQuantum .quad = -16494 ∧ FpFormat.topQuantum .quad = 16271 := by decide

theorem log2_le_of_lt {m k : Nat} (h : m < 2 ^ (k + 1)) : Nat.log2 m ≤ k := by
  by_cases hm : m = 0
  · simp [hm]
  · exact Nat.le_of_lt_succ ((Nat.log2_lt hm).mpr h)

/-- FiTOd and FiTOq. -/
theorem fpOfInt_holds (r : Rounding) (i : Word) {g : FpFormat} (hg : g ≠ .single) :
    HoldsExactly g (fpOfInt g r i) i.msb i.toInt.natAbs 0 := by
  have hlog : Nat.log2 i.toInt.natAbs ≤ 31 := by
    have hlo := BitVec.le_two_mul_toInt (x := i)
    have hhi := BitVec.two_mul_toInt_lt (x := i)
    exact log2_le_of_lt (by omega)
  refine fpRound_holds r i.msb fun _ => ?_
  cases g with
  | single => exact absurd rfl hg
  | double =>
    obtain ⟨hf, hq, ht⟩ := double_range
    omega
  | quad =>
    obtain ⟨hf, hq, ht⟩ := quad_range
    omega

/-- The widening conversions. -/
theorem fpConvert_holds (r : Rounding) {f g : FpFormat} {a m : Nat} {e : Int} {s : Bool}
    (hfg : f = .single ∧ g ≠ .single ∨ f = .double ∧ g = .quad) (h : fpUnpack f a = .num s m e) :
    HoldsExactly g (fpConvert f g r a) s m e := by
  obtain ⟨hm, hlo, hhi⟩ := unpack_num_bounds h
  have hlog := log2_le_of_lt hm
  obtain ⟨hf1, hq1, ht1⟩ := single_range
  obtain ⟨hf2, hq2, ht2⟩ := double_range
  obtain ⟨hf3, hq3, ht3⟩ := quad_range
  rw [fpConvert, h]
  refine fpRound_holds r s fun _ => ?_
  rcases hfg with ⟨rfl, hg⟩ | ⟨rfl, rfl⟩
  · cases g with
    | single => exact absurd rfl hg
    | double => omega
    | quad => omega
  · omega

/-- FsMULd and FdMULq. -/
theorem fpMul_holds (r : Rounding) {f g : FpFormat} {a b m1 m2 : Nat} {e1 e2 : Int} {s1 s2 : Bool}
    (hfg : f = .single ∧ g = .double ∨ f = .double ∧ g = .quad) (h1 : fpUnpack f a = .num s1 m1 e1)
    (h2 : fpUnpack f b = .num s2 m2 e2) : HoldsExactly g (fpMul f g r a b) (s1 ^^ s2) (m1 * m2) (e1 + e2) := by
  obtain ⟨hm1, hlo1, hhi1⟩ := unpack_num_bounds h1
  obtain ⟨hm2, hlo2, hhi2⟩ := unpack_num_bounds h2
  have hprod : m1 * m2 < 2 ^ (f.fracBits + 1 + f.fracBits + 1) := by
    rw [Nat.add_assoc, Nat.pow_add]
    exact Nat.mul_lt_mul'' hm1 hm2
  have hlog := log2_le_of_lt hprod
  obtain ⟨hf1, hq1, ht1⟩ := single_range
  obtain ⟨hf2, hq2, ht2⟩ := double_range
  obtain ⟨hf3, hq3, ht3⟩ := quad_range
  rw [fpMul_eq (unpack_ne_nan_of_num h1) (unpack_ne_nan_of_num h2), h1, h2]
  refine fpRound_holds r _ fun _ => ?_
  rcases hfg with ⟨rfl, rfl⟩ | ⟨rfl, rfl⟩ <;> omega

/-- Settles O51. -/
theorem exactFloatingResults : Obligations.ExactFloatingResults := by
  unfold Obligations.ExactFloatingResults
  refine ⟨fun r => ⟨fun i g hg => fpOfInt_holds r i hg, fun f g a s m e hfg h => fpConvert_holds r hfg h,
    fun f g a b s1 s2 m1 m2 e1 e2 hfg h1 h2 => fpMul_holds r hfg h1 h2⟩, fun f g r a b s1 s2 => ?_⟩
  intro inf zero
  have isInf {h : FpFormat} {s : Bool} {x : FpResult} (hx : x = ⟨fpInf h s, {}⟩) : inf h s x := by
    subst hx
    refine ⟨rfl, ?_⟩
    cases s
    · exact (Nat.zero_add _).symm
    · rfl
  have isZero {h : FpFormat} {s : Bool} {x : FpResult} (hx : x = ⟨fpSigned h s 0, {}⟩) : zero h s x := by
    subst hx
    exact ⟨rfl, by cases s <;> rfl⟩
  refine ⟨fun ha => ?infinite, fun x y hx hy => ?finite⟩
  case infinite =>
    have hna := unpack_ne_nan_of_inf ha
    refine ⟨isInf (by rw [fpConvert, ha]), fun hs => isInf (by rw [fpSqrt, ha, hs]; rfl), fun hb => ?_, fun y hy => ?_⟩
    · have hnb := unpack_ne_nan_of_inf hb
      refine ⟨fun hs => isInf ?_, fun hs => isInf ?_, isInf ?_⟩
      · rw [fpAdd_eq hna hnb, ha, hb]
        exact if_pos hs
      · rw [fpSub_eq hna hnb, ha, hb]
        refine if_pos ?_
        revert hs
        cases s1 <;> cases s2 <;> simp
      · rw [fpMul_eq hna hnb, ha, hb]
        rfl
    · obtain ⟨m, e, hb, rfl⟩ := (standsFor_iff ..).mp hy
      have hnb := unpack_ne_nan_of_num hb
      refine ⟨isInf ?_, isInf ?_, isInf ?_, isInf ?_, isInf ?_, isZero ?_, fun h0 => ?_⟩
      · rw [fpAdd_eq hna hnb, ha, hb]
        rfl
      · rw [fpAdd_eq hnb hna, ha, hb]
        rfl
      · rw [fpSub_eq hna hnb, ha, hb]
        rfl
      · rw [fpSub_eq hnb hna, ha, hb]
        rfl
      · rw [fpDiv_eq hna hnb, ha, hb]
        rfl
      · rw [fpDiv_eq hnb hna, ha, hb, Bool.xor_comm]
        rfl
      · have hm := (numValue_eq_zero ..).not.mp h0
        refine ⟨isInf ?_, isInf ?_⟩
        · rw [fpMul_eq hna hnb, ha, hb]
          exact if_neg hm
        · rw [fpMul_eq hnb hna, ha, hb, Bool.xor_comm]
          exact if_neg hm
  case finite =>
    obtain ⟨m1, e1, hu1, rfl⟩ := (standsFor_iff ..).mp hx
    obtain ⟨m2, e2, hu2, rfl⟩ := (standsFor_iff ..).mp hy
    have hn1 := unpack_ne_nan_of_num hu1
    have hn2 := unpack_ne_nan_of_num hu2
    rw [numValue_eq_zero, ne_eq, ne_eq, numValue_eq_zero, numValue_eq_zero, mul_eq_zero, numValue_eq_zero,
      numValue_eq_zero]
    refine ⟨fun h => isZero ?_, fun h => isZero ?_, fun h => isZero ?_, fun h => ⟨isZero ?_, isZero ?_⟩,
      fun h1 h2 => isZero ?_, fun h1 h2 => ?_⟩
    · rw [fpAdd_eq hn1 hn2, hu1, hu2]
      exact fpSum_zero f r h
    · rw [fpSub_eq hn1 hn2, hu1, hu2]
      rw [sub_eq_add_neg, ← numValue_negate] at h
      exact fpSum_zero f r h
    · rw [fpMul_eq hn1 hn2, hu1, hu2]
      show fpRound g r _ (m1 * m2) _ false = _
      rw [Nat.mul_eq_zero.mpr h, fpRound_zero]
    · rw [fpConvert, hu1, h]
      exact fpRound_zero ..
    · rw [fpSqrt, hu1]
      exact if_pos h
    · rw [fpDiv_eq hn1 hn2, hu1, hu2, fpQuotient, if_neg h2, h1]
      simp only [Nat.zero_mul, Nat.zero_div, fpRound_zero]
    · have hd : fpDiv f r a b = ⟨fpInf f (s1 ^^ s2), { dz := true }⟩ := by
        rw [fpDiv_eq hn1 hn2, hu1, hu2, fpQuotient, if_pos h2, if_neg h1]
      rw [hd]
      refine ⟨rfl, (isInf (x := ⟨fpInf f (s1 ^^ s2), {}⟩) rfl).2⟩

end Sys2Proof.Machine
end

section
/-! The fields of an instruction's word, which instructions are privileged, illegal or of a unit, and what comes
before a fetched instruction (30_encoding.md section 1; 60_exceptions.md R705, R712, R713). -/

namespace Sys2Proof.Machine

/-! ### The fields of a word -/

theorem pack_call (d : BitVec 30) : (pack (.call d)).toNat / 2 ^ 30 = 1 := by
  have := d.isLt
  simp only [pack, append_toNat, BitVec.toNat_ofNat]
  omega

theorem pack_fmt2 (top : BitVec 5) (op2 : BitVec 3) (imm : BitVec 22) :
    (pack (.fmt2 top op2 imm)).toNat / 2 ^ 30 = 0 ∧ (pack (.fmt2 top op2 imm)).toNat / 2 ^ 22 % 8 = op2.toNat ∧
      (pack (.fmt2 top op2 imm)).toNat / 2 ^ 25 % 32 = top.toNat := by
  have := top.isLt
  have := op2.isLt
  have := imm.isLt
  simp only [pack, append_toNat, BitVec.toNat_ofNat]
  omega

theorem pack_fmt3 (mem : Bool) (rd : RegNum) (op3 : BitVec 6) (rs1 : RegNum) (low : BitVec 14) :
    (pack (.fmt3 mem rd op3 rs1 low)).toNat / 2 ^ 30 = (if mem then 3 else 2) ∧
      (pack (.fmt3 mem rd op3 rs1 low)).toNat / 2 ^ 19 % 64 = op3.toNat ∧
      (pack (.fmt3 mem rd op3 rs1 low)).toNat / 2 ^ 25 % 32 = rd.toNat ∧
      (pack (.fmt3 mem rd op3 rs1 low)).toNat / 2 ^ 14 % 32 = rs1.toNat ∧
      (pack (.fmt3 mem rd op3 rs1 low)).toNat / 2 ^ 13 % 2 = low.toNat / 2 ^ 13 ∧
      (pack (.fmt3 mem rd op3 rs1 low)).toNat % 32 = low.toNat % 32 := by
  have := rd.isLt
  have := op3.isLt
  have := rs1.isLt
  have := low.isLt
  cases mem <;> simp only [pack, append_toNat, BitVec.toNat_ofNat, if_true, if_false, Bool.false_eq_true] <;> omega

/-! ### The instructions of the units -/

theorem op3_fpop (op3 : BitVec 6) : (op3 == 0x34#6 || op3 == 0x35#6) = true ↔ op3.toNat ∈ [0x34, 0x35] := by
  decide +revert

theorem op3_fpMem (op3 : BitVec 6) :
    [0x20#6, 0x21#6, 0x23#6, 0x24#6, 0x25#6, 0x26#6, 0x27#6].contains op3 = true ↔
      op3.toNat ∈ [0x20, 0x21, 0x23, 0x24, 0x25, 0x26, 0x27] := by
  decide +revert

theorem op3_cpop (op3 : BitVec 6) : (op3 == 0x36#6 || op3 == 0x37#6) = true ↔ op3.toNat ∈ [0x36, 0x37] := by
  decide +revert

theorem op3_cpMem (op3 : BitVec 6) :
    [0x30#6, 0x31#6, 0x33#6, 0x34#6, 0x35#6, 0x36#6, 0x37#6].contains op3 = true ↔
      op3.toNat ∈ [0x30, 0x31, 0x33, 0x34, 0x35, 0x36, 0x37] := by
  decide +revert

theorem op2_fbfcc (op2 : BitVec 3) : (op2 == 6#3) = true ↔ op2.toNat = 6 := by decide +revert

theorem op2_cbccc (op2 : BitVec 3) : (op2 == 7#3) = true ↔ op2.toNat = 7 := by decide +revert

theorem usesFpu_iff (i : Instr) :
    usesFpu i = true ↔
      (encode i).toNat / 2 ^ 30 = 0 ∧ (encode i).toNat / 2 ^ 22 % 8 = 6 ∨
        (encode i).toNat / 2 ^ 30 = 2 ∧ (encode i).toNat / 2 ^ 19 % 64 ∈ [0x34, 0x35] ∨
        (encode i).toNat / 2 ^ 30 = 3 ∧
          (encode i).toNat / 2 ^ 19 % 64 ∈ [0x20, 0x21, 0x23, 0x24, 0x25, 0x26, 0x27] := by
  unfold usesFpu encode
  cases encodeFormat i with
  | call d =>
    rw [pack_call]
    simp
  | fmt2 top op2 imm =>
    obtain ⟨hop, hop2, -⟩ := pack_fmt2 top op2 imm
    rw [hop, hop2]
    simpa using op2_fbfcc op2
  | fmt3 mem rd op3 rs1 low =>
    obtain ⟨hop, hop3, -⟩ := pack_fmt3 mem rd op3 rs1 low
    rw [hop, hop3]
    cases mem with
    | true => exact (op3_fpMem op3).trans (by simp)
    | false => exact (op3_fpop op3).trans (by simp)

theorem usesCp_iff (i : Instr) :
    usesCp i = true ↔
      (encode i).toNat / 2 ^ 30 = 0 ∧ (encode i).toNat / 2 ^ 22 % 8 = 7 ∨
        (encode i).toNat / 2 ^ 30 = 2 ∧ (encode i).toNat / 2 ^ 19 % 64 ∈ [0x36, 0x37] ∨
        (encode i).toNat / 2 ^ 30 = 3 ∧
          (encode i).toNat / 2 ^ 19 % 64 ∈ [0x30, 0x31, 0x33, 0x34, 0x35, 0x36, 0x37] := by
  unfold usesCp encode
  cases encodeFormat i with
  | call d =>
    rw [pack_call]
    simp
  | fmt2 top op2 imm =>
    obtain ⟨hop, hop2, -⟩ := pack_fmt2 top op2 imm
    rw [hop, hop2]
    simpa using op2_cbccc op2
  | fmt3 mem rd op3 rs1 low =>
    obtain ⟨hop, hop3, -⟩ := pack_fmt3 mem rd op3 rs1 low
    rw [hop, hop3]
    cases mem with
    | true => exact (op3_cpMem op3).trans (by simp)
    | false => exact (op3_cpop op3).trans (by simp)

/-! ### The privileged instructions -/

/-- Is an instruction one of those that are privileged whatever the implementation. -/
def PrivilegedInstr (i : Instr) (rd rs1 : RegNum) (o : Operand2) (alt : AltOperand) : Prop :=
  i ∈ [Instr.ldsba rd rs1 alt, .ldsha rd rs1 alt, .lduba rd rs1 alt, .lduha rd rs1 alt, .lda rd rs1 alt,
    .ldda rd rs1 alt, .stba rd rs1 alt, .stha rd rs1 alt, .sta rd rs1 alt, .stda rd rs1 alt,
    .ldstuba rd rs1 alt, .swapa rd rs1 alt, .stdfq rs1 o, .stdcq rs1 o, .rdpsr rd, .rdwim rd,
    .rdtbr rd, .wrpsr rs1 o, .wrwim rs1 o, .wrtbr rs1 o, .rett rs1 o]

theorem isPrivileged_iff (c : Config) (i : Instr) :
    isPrivileged c i = true ↔ ∃ (rd rs1 n : RegNum) (o : Operand2) (alt : AltOperand),
      PrivilegedInstr i rd rs1 o alt ∨
        c.asrPrivileged.getLsbD n.toNat = true ∧ i ∈ [Instr.rdasr rd n, .wrasr n rs1 o] := by
  constructor
  · intro h
    have always {rd rs1 : RegNum} {o : Operand2} {alt : AltOperand} (hp : PrivilegedInstr i rd rs1 o alt) :
        ∃ (rd rs1 n : RegNum) (o : Operand2) (alt : AltOperand), PrivilegedInstr i rd rs1 o alt ∨
          c.asrPrivileged.getLsbD n.toNat = true ∧ i ∈ [Instr.rdasr rd n, .wrasr n rs1 o] :=
      ⟨rd, rs1, 0#5, o, alt, .inl hp⟩
    cases i
    case ldsba rd rs1 alt | ldsha rd rs1 alt | lduba rd rs1 alt | lduha rd rs1 alt | lda rd rs1 alt | ldda rd rs1 alt
        | stba rd rs1 alt | stha rd rs1 alt | sta rd rs1 alt | stda rd rs1 alt | ldstuba rd rs1 alt
        | swapa rd rs1 alt =>
      exact always (rd := rd) (rs1 := rs1) (o := .imm 0#13) (alt := alt) (by simp [PrivilegedInstr])
    case stdfq rs1 o | stdcq rs1 o | wrpsr rs1 o | wrwim rs1 o | wrtbr rs1 o | rett rs1 o =>
      exact always (rd := 0#5) (rs1 := rs1) (o := o) (alt := .imm 0#13) (by simp [PrivilegedInstr])
    case rdpsr rd | rdwim rd | rdtbr rd =>
      exact always (rd := rd) (rs1 := 0#5) (o := .imm 0#13) (alt := .imm 0#13) (by simp [PrivilegedInstr])
    case rdasr rd n => exact ⟨rd, 0#5, n, .imm 0#13, .imm 0#13, .inr ⟨h, by simp⟩⟩
    case wrasr n rs1 o => exact ⟨0#5, rs1, n, o, .imm 0#13, .inr ⟨h, by simp⟩⟩
    all_goals exact absurd h Bool.false_ne_true
  · rintro ⟨rd, rs1, n, o, alt, h | ⟨hn, h⟩⟩
    · have all : ∀ j, PrivilegedInstr j rd rs1 o alt → isPrivileged c j = true := by
        unfold PrivilegedInstr
        simp only [List.forall_mem_cons, List.not_mem_nil, false_imp_iff, implies_true, and_true]
        exact ⟨rfl, rfl, rfl, rfl, rfl, rfl, rfl, rfl, rfl, rfl, rfl, rfl, rfl, rfl, rfl, rfl, rfl, rfl, rfl, rfl, rfl⟩
      exact all i h
    · rcases List.mem_pair.mp h with rfl | rfl
      · exact hn
      · exact hn

/-! ### The illegal instructions -/

/-- Is an instruction illegal in every state. -/
def AlwaysIllegal (i : Instr) (rd rs1 : RegNum) (low : BitVec 13) (imm : BitVec 22) (op2 : BitVec 3) (op3 : BitVec 6) :
    Prop :=
  i ∈ [Instr.unimp imm, .unassignedOp2 op2, .unassignedOp3Arith op3, .unassignedOp3Mem op3,
    .ldsba rd rs1 (.imm low), .ldsha rd rs1 (.imm low), .lduba rd rs1 (.imm low),
    .lduha rd rs1 (.imm low), .lda rd rs1 (.imm low), .ldda rd rs1 (.imm low),
    .stba rd rs1 (.imm low), .stha rd rs1 (.imm low), .sta rd rs1 (.imm low),
    .stda rd rs1 (.imm low), .ldstuba rd rs1 (.imm low), .swapa rd rs1 (.imm low)]

/-- Is an instruction illegal, by its form and what the state and the implementation say of it. -/
def IllegalForm (s : State) (i : Instr) (rd rs1 rs2 n : RegNum) (o : Operand2) (low : BitVec 13) (asi : BitVec 8)
    (imm : BitVec 22) (op2 : BitVec 3) (op3 : BitVec 6) (opf : BitVec 9) : Prop :=
  AlwaysIllegal i rd rs1 low imm op2 op3 ∨
    (s.cfg.oddRdLddTraps = true ∧ rd.toNat % 2 = 1 ∧
      i ∈ [Instr.ldd rd rs1 o, .std rd rs1 o, .ldda rd rs1 (.reg asi rs2), .stda rd rs1 (.reg asi rs2)]) ∨
    (s.cfg.nwindows ≤ (reg s rs1 ^^^ operand2 s o).toNat % 32 ∧ i = .wrpsr rs1 o) ∨
    (s.psr.et = true ∧ i = .rett rs1 o) ∨
    (16 ≤ n.toNat ∧ s.cfg.asrImplemented.getLsbD (n.toNat - 16) = false ∧ i ∈ [Instr.rdasr rd n, .wrasr n rs1 o]) ∨
    (s.cfg.reservedOpfIllegal = true ∧
      i ∈ [Instr.fpop1Unassigned rd rs1 opf rs2, .fpop2Unassigned rd rs1 opf rs2]) ∨
    s.cfg.flushImpl = .trapsIllegalInstruction ∧ i = .flush rs1 o

theorem odd_iff (c : Bool) (rd : RegNum) : (c && rd.getLsbD 0) = true ↔ c = true ∧ rd.toNat % 2 = 1 := by
  simp [BitVec.getLsbD, Nat.testBit_zero]

theorem asrAbsent_iff (c : Config) (n : RegNum) :
    (decide (16 ≤ n.toNat) && !c.asrImplemented.getLsbD (n.toNat - 16)) = true ↔
      16 ≤ n.toNat ∧ c.asrImplemented.getLsbD (n.toNat - 16) = false := by simp

theorem writtenWindow_iff (s : State) (rs1 : RegNum) (o : Operand2) :
    isIllegal s (.wrpsr rs1 o) = true ↔ s.cfg.nwindows ≤ (reg s rs1 ^^^ operand2 s o).toNat % 32 := by
  show decide _ = true ↔ _
  rw [decide_eq_true_iff, toNat_low]
  rfl

theorem isIllegal_iff (s : State) (i : Instr) :
    isIllegal s i = true ↔ ∃ rd rs1 rs2 n o low asi imm op2 op3 opf,
      IllegalForm s i rd rs1 rs2 n o low asi imm op2 op3 opf := by
  constructor
  · intro h
    have always {rd rs1 : RegNum} {low : BitVec 13} {imm : BitVec 22} {op2 : BitVec 3} {op3 : BitVec 6}
        (ha : AlwaysIllegal i rd rs1 low imm op2 op3) : ∃ rd rs1 rs2 n o low asi imm op2 op3 opf,
          IllegalForm s i rd rs1 rs2 n o low asi imm op2 op3 opf :=
      ⟨rd, rs1, 0#5, 0#5, .imm 0#13, low, 0#8, imm, op2, op3, 0#9, .inl ha⟩
    have form {rd rs1 rs2 n : RegNum} {o : Operand2} {asi : BitVec 8} {opf : BitVec 9}
        (hf : IllegalForm s i rd rs1 rs2 n o 0#13 asi 0#22 0#3 0#6 opf) : ∃ rd rs1 rs2 n o low asi imm op2 op3 opf,
          IllegalForm s i rd rs1 rs2 n o low asi imm op2 op3 opf := ⟨_, _, _, _, _, _, _, _, _, _, _, hf⟩
    have odd {rd rs1 rs2 : RegNum} {o : Operand2} {asi : BitVec 8} (ho : (s.cfg.oddRdLddTraps && rd.getLsbD 0) = true)
        (hm : i ∈ [Instr.ldd rd rs1 o, .std rd rs1 o, .ldda rd rs1 (.reg asi rs2), .stda rd rs1 (.reg asi rs2)]) :
        ∃ rd rs1 rs2 n o low asi imm op2 op3 opf, IllegalForm s i rd rs1 rs2 n o low asi imm op2 op3 opf := by
      obtain ⟨hc, hr⟩ := (odd_iff ..).mp ho
      exact form (n := 0#5) (opf := 0#9) (.inr (.inl ⟨hc, hr, hm⟩))
    have absent {rd rs1 n : RegNum} {o : Operand2}
        (ha : (decide (16 ≤ n.toNat) && !s.cfg.asrImplemented.getLsbD (n.toNat - 16)) = true)
        (hm : i ∈ [Instr.rdasr rd n, .wrasr n rs1 o]) :
        ∃ rd rs1 rs2 n o low asi imm op2 op3 opf, IllegalForm s i rd rs1 rs2 n o low asi imm op2 op3 opf := by
      obtain ⟨hn, hi⟩ := (asrAbsent_iff ..).mp ha
      exact form (rs2 := 0#5) (asi := 0#8) (opf := 0#9) (.inr (.inr (.inr (.inr (.inl ⟨hn, hi, hm⟩)))))
    have reserved {rd rs1 rs2 : RegNum} {opf : BitVec 9} (hc : s.cfg.reservedOpfIllegal = true)
        (hm : i ∈ [Instr.fpop1Unassigned rd rs1 opf rs2, .fpop2Unassigned rd rs1 opf rs2]) :
        ∃ rd rs1 rs2 n o low asi imm op2 op3 opf, IllegalForm s i rd rs1 rs2 n o low asi imm op2 op3 opf :=
      form (n := 0#5) (o := .imm 0#13) (asi := 0#8) (.inr (.inr (.inr (.inr (.inr (.inl ⟨hc, hm⟩))))))
    cases i
    case unimp imm =>
      exact always (rd := 0#5) (rs1 := 0#5) (low := 0#13) (imm := imm) (op2 := 0#3) (op3 := 0#6) (by simp [AlwaysIllegal])
    case unassignedOp2 op2 =>
      exact always (rd := 0#5) (rs1 := 0#5) (low := 0#13) (imm := 0#22) (op2 := op2) (op3 := 0#6) (by simp [AlwaysIllegal])
    case unassignedOp3Arith op3 | unassignedOp3Mem op3 =>
      exact always (rd := 0#5) (rs1 := 0#5) (low := 0#13) (imm := 0#22) (op2 := 0#3) (op3 := op3) (by simp [AlwaysIllegal])
    case ldsba rd rs1 alt | ldsha rd rs1 alt | lduba rd rs1 alt | lduha rd rs1 alt | lda rd rs1 alt | stba rd rs1 alt
        | stha rd rs1 alt | sta rd rs1 alt | ldstuba rd rs1 alt | swapa rd rs1 alt =>
      cases alt with
      | reg asi rs2 => exact absurd h Bool.false_ne_true
      | imm low =>
        exact always (rd := rd) (rs1 := rs1) (low := low) (imm := 0#22) (op2 := 0#3) (op3 := 0#6) (by simp [AlwaysIllegal])
    case ldda rd rs1 alt | stda rd rs1 alt =>
      cases alt with
      | reg asi rs2 => exact odd (rd := rd) (rs1 := rs1) (rs2 := rs2) (o := .imm 0#13) (asi := asi) h (by simp)
      | imm low =>
        exact always (rd := rd) (rs1 := rs1) (low := low) (imm := 0#22) (op2 := 0#3) (op3 := 0#6) (by simp [AlwaysIllegal])
    case ldd rd rs1 o | std rd rs1 o =>
      exact odd (rd := rd) (rs1 := rs1) (rs2 := 0#5) (o := o) (asi := 0#8) h (by simp)
    case wrpsr rs1 o =>
      exact form (rd := 0#5) (rs2 := 0#5) (n := 0#5) (asi := 0#8) (opf := 0#9)
        (.inr (.inr (.inl ⟨(writtenWindow_iff s rs1 o).mp h, rfl⟩)))
    case rett rs1 o =>
      exact form (rd := 0#5) (rs2 := 0#5) (n := 0#5) (asi := 0#8) (opf := 0#9) (.inr (.inr (.inr (.inl ⟨h, rfl⟩))))
    case rdasr rd n => exact absent (rd := rd) (rs1 := 0#5) (n := n) (o := .imm 0#13) h (by simp)
    case wrasr n rs1 o => exact absent (rd := 0#5) (rs1 := rs1) (n := n) (o := o) h (by simp)
    case fpop1Unassigned rd rs1 opf rs2 | fpop2Unassigned rd rs1 opf rs2 =>
      exact reserved (rd := rd) (rs1 := rs1) (rs2 := rs2) (opf := opf) h (by simp)
    case flush rs1 o =>
      exact form (rd := 0#5) (rs1 := rs1) (rs2 := 0#5) (n := 0#5) (o := o) (asi := 0#8) (opf := 0#9)
        (.inr (.inr (.inr (.inr (.inr (.inr ⟨eq_of_beq h, rfl⟩))))))
    all_goals exact absurd h Bool.false_ne_true
  · rintro ⟨rd, rs1, rs2, n, o, low, asi, imm, op2, op3, opf, h | ⟨hc, hr, h⟩ | ⟨hw, rfl⟩ | ⟨he, rfl⟩ | ⟨hn, ha, h⟩ |
      ⟨hc, h⟩ | ⟨hf, rfl⟩⟩
    · have all : ∀ j, AlwaysIllegal j rd rs1 low imm op2 op3 → isIllegal s j = true := by
        unfold AlwaysIllegal
        simp only [List.forall_mem_cons, List.not_mem_nil, false_imp_iff, implies_true, and_true]
        exact ⟨rfl, rfl, rfl, rfl, rfl, rfl, rfl, rfl, rfl, rfl, rfl, rfl, rfl, rfl, rfl, rfl⟩
      exact all i h
    · have ho := (odd_iff ..).mpr ⟨hc, hr⟩
      have all : ∀ j ∈ [Instr.ldd rd rs1 o, .std rd rs1 o, .ldda rd rs1 (.reg asi rs2), .stda rd rs1 (.reg asi rs2)],
          isIllegal s j = true := by
        simp only [List.forall_mem_cons, List.not_mem_nil, false_imp_iff, implies_true, and_true]
        exact ⟨ho, ho, ho, ho⟩
      exact all i h
    · exact (writtenWindow_iff s rs1 o).mpr hw
    · exact he
    · have ha := (asrAbsent_iff ..).mpr ⟨hn, ha⟩
      rcases List.mem_pair.mp h with rfl | rfl
      · exact ha
      · exact ha
    · rcases List.mem_pair.mp h with rfl | rfl
      · exact hc
      · exact hc
    · exact beq_iff_eq.mpr hf

/-! ### The FPops and CPops by their words -/

/-- An FPop, or an illegal word of no FPop. -/
def FpopInstr (i : Instr) : Prop :=
  usesFpu i = true ∧ ∀ u, isIllegal u i = false → ∃ op rd rs1 rs2, exec i u = (fpop u op rd rs1 rs2).out

theorem unassigned_fpopInstr {i : Instr} {fpop2 : Bool} (hu : usesFpu i = true)
    (hi : ∀ u, isIllegal u i = u.cfg.reservedOpfIllegal) (hx : ∀ u, exec i u = (fpUnassigned u fpop2).out) :
    FpopInstr i := by
  refine ⟨hu, fun u h => ⟨.unassigned fpop2, 0#5, 0#5, 0#5, (hx u).trans (congrArg Res.out (if_neg ?_))⟩⟩
  rw [← hi u, h]
  exact Bool.false_ne_true

theorem decodeFpop1_instr (rd rs1 : RegNum) (opf : BitVec 9) (rs2 : RegNum) : FpopInstr (decodeFpop1 rd rs1 opf rs2) := by
  unfold decodeFpop1
  split
  case h_33 => exact unassigned_fpopInstr (fpop2 := false) rfl (fun _ => rfl) fun _ => rfl
  all_goals exact ⟨rfl, fun u _ => ⟨_, _, _, _, rfl⟩⟩

theorem decodeFpop2_instr (rd rs1 : RegNum) (opf : BitVec 9) (rs2 : RegNum) : FpopInstr (decodeFpop2 rd rs1 opf rs2) := by
  unfold decodeFpop2
  split
  case h_7 => exact unassigned_fpopInstr (fpop2 := true) rfl (fun _ => rfl) fun _ => rfl
  all_goals exact ⟨rfl, fun u _ => ⟨_, _, _, _, rfl⟩⟩

theorem decodeWord_fpop {w : Word} (h : isFpopWord w = true) : FpopInstr (decodeWord w) := by
  rw [isFpopWord_unpack] at h
  unfold decodeWord
  cases hu : unpack w with
  | call d => simp [hu] at h
  | fmt2 top op2 imm => simp [hu] at h
  | fmt3 mem rd op3 rs1 low =>
    rw [hu] at h
    cases mem with
    | true => cases h
    | false =>
      simp only [Bool.or_eq_true, beq_iff_eq] at h
      rcases h with rfl | rfl
      · exact decodeFpop1_instr ..
      · exact decodeFpop2_instr ..

theorem isCpopWord_unpack (w : Word) :
    isCpopWord w = match unpack w with
      | .fmt3 false _ op3 _ _ => op3 == 0x36#6 || op3 == 0x37#6
      | _ => false := by
  unfold isCpopWord unpack
  generalize w.extractLsb' 30 2 = op
  generalize w.extractLsb' 19 6 = op3
  have ho : op = 0#2 ∨ op = 1#2 ∨ op = 2#2 ∨ op = 3#2 := by revert op; decide
  rcases ho with rfl | rfl | rfl | rfl <;> simp

/-- A CPop is of the coprocessor, and neither privileged nor illegal. -/
theorem decodeWord_cpop {w : Word} (h : isCpopWord w = true) :
    usesFpu (decodeWord w) = false ∧ usesCp (decodeWord w) = true ∧ isFpopWord w = false ∧
      (∀ rs1 o, decodeWord w ≠ .flush rs1 o) ∧
        ∀ u, isPrivileged u.cfg (decodeWord w) = false ∧ isIllegal u (decodeWord w) = false := by
  rw [isCpopWord_unpack] at h
  rw [isFpopWord_unpack]
  unfold decodeWord
  cases hu : unpack w with
  | call d => simp [hu] at h
  | fmt2 top op2 imm => simp [hu] at h
  | fmt3 mem rd op3 rs1 low =>
    rw [hu] at h
    cases mem with
    | true => cases h
    | false =>
      simp only [Bool.or_eq_true, beq_iff_eq] at h
      rcases h with rfl | rfl
      · exact ⟨rfl, rfl, rfl, fun _ _ h => Instr.noConfusion h, fun _ => ⟨rfl, rfl⟩⟩
      · exact ⟨rfl, rfl, rfl, fun _ _ h => Instr.noConfusion h, fun _ => ⟨rfl, rfl⟩⟩

/-! ### What comes before a fetched instruction -/

/-- Does a machine check not interrupt the cycle. -/
def Uninterrupting (x : Option MachineCheck) : Prop :=
  x = none ∨ x = some .watchpointDetected ∨ x = some .rRegisterAccessError

theorem interruptingTrap_uninterrupting {s : State} (hm : Uninterrupting s.now.machineCheck) (hi : s.now.irl = 0#4) :
    interruptingTrap s = none := by
  unfold interruptingTrap interruptTaken
  rcases hm with hm | hm | hm <;>
    simp only [hm, hi, irl_zero_not_taken, Bool.and_false, Bool.false_eq_true, if_false, ite_self]

/-- The state in which a fetched instruction is met. -/
def fetchedState (s v : State) (w : Word) : State :=
  { v with instruction := w, fccWindow := fccTurn w s.fccWindow, recentWrites := tickRecent s.recentWrites }

/-- The step of a fetched word is what comes before its instruction, or the instruction. -/
theorem step_fetched {s v : State} {w : Word} {i : Instr} {rest : List Byte} {x : Option MachineCheck}
    (hmode : s.mode = .execute) (hnow : (takeInputs s).now = { Inputs.quiet with machineCheck := x })
    (hannul : s.annul = false) (hd : decode (bytesOfWord w) = .ok (i, rest))
    (hf : fetch (turn (takeInputs s)) = .ok w v) (hx : Uninterrupting x) :
    (fetchedState s v w).now.machineCheck = x ∧ (fetchedState s v w).cfg = s.cfg ∧
      (∀ r, beforeExecution (fetchedState s v w) w i = some r → step s = r.out) ∧
        (beforeExecution (fetchedState s v w) w i = none → step s = exec i (fetchedState s v w)) := by
  have hframe := fetch_framed (turn (takeInputs s))
  rw [hf] at hframe
  have hr := hframe.rest
  have hvnow : v.now = { Inputs.quiet with machineCheck := x } := by rw [hr]; exact (turn_now _).trans hnow
  have hvcfg : v.cfg = s.cfg := by rw [hr]; exact turn_cfg _
  have hvfcc : v.fccWindow = s.fccWindow := by rw [hr]; exact turn_fccWindow _
  have hvrecent : v.recentWrites = s.recentWrites := by rw [hr]; exact turn_recentWrites _
  have hcycle : executeCycle (takeInputs s) = fetchCycle (turn (takeInputs s)) := by
    have hwork : cpDefers (fpEndWork (takeInputs s).now.fpuEnds (takeInputs s)) = takeInputs s :=
      unitsWork_none (by rw [hnow]; rfl) (by rw [hnow]; rfl)
    have hreset : (takeInputs s).now.resetIn = false := by rw [hnow]; rfl
    unfold executeCycle
    simp only [hreset, Bool.false_eq_true, if_false, hwork]
    rw [interruptingTrap_uninterrupting (by rw [hnow]; exact hx) (by rw [hnow]; rfl)]
  have hprep : prepare s = fetched v w := by
    rw [prepare_execute hmode, hcycle, fetchCycle, if_neg (by rw [turn_annul]; exact ne_true_of_eq_false hannul), hf]
  have hstate : fetchedState s v w =
      { v with instruction := w, fccWindow := fccTurn w v.fccWindow, recentWrites := tickRecent v.recentWrites } := by
    rw [hvfcc, hvrecent]
    rfl
  refine ⟨by rw [fetchedState, hvnow], hvcfg, fun r h => step_of_ended ?_, fun h => step_of_run ?_⟩
  · rw [hstate] at h
    rw [hprep, fetched]
    simp only [hd, h]
  · rw [hprep, fetched]
    rw [hstate] at h
    simp only [hd, h]
    rw [hstate]

/-- May an instruction run in the state's mode. -/
def Legal (u : State) (i : Instr) : Prop := isPrivileged u.cfg i = false ∨ u.psr.s = true

/-- Is an instruction's unit disabled, or FLUSH left to software. -/
def Disabled (u : State) (i : Instr) : Prop :=
  usesFpu i = true ∧ efOn u = false ∨ usesCp i = true ∧ ecOn u = false ∨
    (∃ rs1 o, i = .flush rs1 o) ∧ u.cfg.flushImpl = .trapsUnimplementedFlush

/-- Does an instruction raise an exception that is above watchpoint_detected in Table 7-1. -/
def Above (u : State) (i : Instr) : Prop := ¬Legal u i ∨ isIllegal u i = true ∨ Disabled u i

theorem legal_iff (u : State) (i : Instr) : Legal u i ↔ (isPrivileged u.cfg i && !u.psr.s) = false := by
  unfold Legal
  cases isPrivileged u.cfg i <;> simp

theorem isDisabled_iff (u : State) (i : Instr) : isDisabled u i = true ↔ Disabled u i := by
  unfold isDisabled Disabled
  split
  case _ => simp [or_assoc]
  case _ h =>
    have hno : ¬∃ rs1 o, i = .flush rs1 o := fun ⟨rs1, o, hi⟩ => h rs1 o hi
    simp [hno]

theorem outranksWatchpoint_iff (u : State) (w : Word) (i : Instr) :
    outranksWatchpoint u w i = true ↔
      Above u i ∨ unimplemented u.cfg w = true ∧ isFpopWord w = false ∧ isCpopWord w = false := by
  unfold outranksWatchpoint Above
  rw [legal_iff, Bool.or_eq_true, Bool.or_eq_true, Bool.or_eq_true, isDisabled_iff]
  simp only [Bool.not_eq_false, Bool.and_eq_true, Bool.not_eq_true']
  tauto

theorem privilegeOf_legal {u : State} {i : Instr} (k : Res) (h : Legal u i) : privilegeOf u i k = k :=
  if_neg (ne_true_of_eq_false ((legal_iff u i).mp h))

theorem privilegeOf_rett {u : State} {i : Instr} (k : Res) (h : ¬Legal u i) (hi : ∃ rs1 o, i = .rett rs1 o)
    (het : u.psr.et = false) : privilegeOf u i k = .done (rettError .privilegedInstruction u) := by
  obtain ⟨rs1, o, rfl⟩ := hi
  rw [legal_iff, Bool.not_eq_false] at h
  exact (if_pos h).trans (if_neg (ne_true_of_eq_false het))

theorem privilegeOf_traps {u : State} {i : Instr} (k : Res) (h : ¬Legal u i)
    (hi : (∀ rs1 o, i ≠ .rett rs1 o) ∨ u.psr.et = true) : privilegeOf u i k = .trap .privilegedInstruction u := by
  rw [legal_iff, Bool.not_eq_false] at h
  refine (if_pos h).trans ?_
  split
  case _ rs1 o =>
    rcases hi with hi | hi
    · exact absurd rfl (hi rs1 o)
    · exact if_pos hi
  · rfl

section
variable {u : State} {w : Word} {i : Instr}

theorem before_registerError (h : u.now.machineCheck = some .rRegisterAccessError) :
    beforeExecution u w i = some (.trap .rRegisterAccessError u) := if_pos h

theorem before_watchpoint (h : u.now.machineCheck = some .watchpointDetected) (ho : outranksWatchpoint u w i = false) :
    beforeExecution u w i = some (.trap .watchpointDetected u) := by
  unfold beforeExecution
  simp [h, ho]

/-- Without a machine check, or under a watchpoint that the instruction outranks, the unimplemented words are next. -/
theorem before_outranked
    (h : u.now.machineCheck = some .watchpointDetected ∧ outranksWatchpoint u w i = true ∨ u.now.machineCheck = none) :
    beforeExecution u w i =
      if unimplemented u.cfg w && !isFpopWord w then some (unimplementedTrap u w i) else none := by
  unfold beforeExecution
  rcases h with ⟨h, ho⟩ | h
  · simp [h, ho]
  · simp [h]

end

/-- An FPop that the FPU does not implement raises unimplemented_FPop. -/
theorem fpop_unimplemented {u : State} {i : Instr} {op : FpOp} {rd rs1 rs2 : RegNum} (hr : FpuReady u)
    (hq : u.cfg.fqPresent = false) (hu : unimplemented u.cfg u.instruction = true)
    (hi : exec i u = (fpop u op rd rs1 rs2).out) : Traps (exec i u) (.fpException ⟨3#3, none⟩) u :=
  fpop_raises hr hq hi (fpExecute_unimplemented (by unfold FpWork.unimplemented fpWork; simp [hu]))

/-- Settles O59: what a fetched word meets before it executes, by the machine check presented and by whether the word
is implemented, an FPop's or a CPop's. -/
theorem prioritiesBeforeExecution : Obligations.PrioritiesBeforeExecution := by
  refine ⟨isPrivileged_iff, isIllegal_iff, fun i _ => ⟨usesFpu_iff i, usesCp_iff i⟩, ?_⟩
  intro s v w i rest x hmode hnow hannul hd hf u integer legal disabled above watch quiet
  have hi : i = decodeWord w := by
    have hw := decode_bytesOfWord w []
    rw [List.append_nil, hd] at hw
    injection hw with hw
    exact congrArg Prod.fst hw
  have fetchedBy (hx : Uninterrupting x) := step_fetched hmode hnow hannul hd hf hx
  have hcfg : u.cfg = s.cfg := by
    have hframe := fetch_framed (turn (takeInputs s))
    rw [hf] at hframe
    rw [show u.cfg = v.cfg from rfl, hframe.rest]
    exact turn_cfg _
  rw [← hcfg]
  have outranks : outranksWatchpoint u w i = true ↔ above ∨ unimplemented u.cfg w = true ∧ integer :=
    outranksWatchpoint_iff u w i
  have watched (h : watch) (ho : ¬(above ∨ unimplemented u.cfg w = true ∧ integer)) :
      Traps (step s) .watchpointDetected u := by
    obtain ⟨hm, -, hended, -⟩ := fetchedBy (.inr (.inl h))
    exact hended _ (before_watchpoint (hm.trans h) (Bool.eq_false_iff.mpr (mt outranks.mp ho)))
  have outranked (h : watch ∧ (above ∨ unimplemented u.cfg w = true ∧ integer) ∨ quiet) :
      ((unimplemented u.cfg w && !isFpopWord w) = true → step s = (unimplementedTrap u w i).out) ∧
        ((unimplemented u.cfg w && !isFpopWord w) = false → step s = exec i u) := by
    obtain ⟨hm, -, hended, hrun⟩ := fetchedBy (h.elim (fun h => .inr (.inl h.1)) .inl)
    have hb : beforeExecution u w i = _ :=
      before_outranked (h.imp (fun h => ⟨hm.trans h.1, outranks.mpr h.2⟩) hm.trans)
    exact ⟨fun hu => hended _ (hb.trans (if_pos hu)), fun hu => hrun (hb.trans (if_neg (ne_true_of_eq_false hu)))⟩
  refine ⟨fun h => (fetchedBy (.inr (.inr h))).2.2.1 _ (before_registerError ((fetchedBy (.inr (.inr h))).1.trans h)),
    fun hu => ⟨fun h ha => watched h (by simp [hu, ha]),
      fun h => (outranked (h.imp_left (And.imp_right .inl))).2 (by simp [hu])⟩, ?integer, ?fpop, ?cpop⟩
  case integer =>
    intro hu hint h
    have hstep : step s = (unimplementedTrap u w i).out :=
      (outranked (h.imp_left fun h => ⟨h, .inr ⟨hu, hint⟩⟩)).1 (by simp [hu, hint.1])
    have htrap : unimplementedTrap u w i = privilegeOf u i (.trap .illegalInstruction u) :=
      if_neg (ne_true_of_eq_false hint.2)
    rw [hstep, htrap]
    exact ⟨fun hl => ⟨fun hr het => congrArg Res.out (privilegeOf_rett _ hl hr het),
      fun hr => congrArg Res.out (privilegeOf_traps _ hl hr)⟩,
      fun hl => congrArg Res.out (privilegeOf_legal _ hl)⟩
  case fpop =>
    intro hu hfp
    have hno : ¬integer := fun h => absurd (hfp.symm.trans h.1) Bool.noConfusion
    have run (h : watch ∧ above ∨ quiet) : step s = exec i u := (outranked (h.imp_left (And.imp_right .inl))).2 (by simp [hfp])
    refine ⟨fun h ha => watched h (by simp [hno, ha]), run, fun hill => ?_⟩
    obtain ⟨hfpu, hexec⟩ := decodeWord_fpop hfp
    rw [← hi] at hfpu hexec
    obtain ⟨op, rd, rs1, rs2, hx⟩ := hexec u hill
    refine ⟨fun h hef => ?_, fun h hr hq => ?_⟩
    · rw [run (h.imp_left fun h => ⟨h, .inr (.inr (.inl ⟨hfpu, hef⟩))⟩), hx]
      exact congrArg Res.out (fpEnabled_off _ hef)
    · rw [run (.inr h)]
      exact fpop_unimplemented hr hq hu hx
  case cpop =>
    intro hu hcp
    obtain ⟨hnofpu, hcpu, hnofp, hnoflush, hlegal⟩ := decodeWord_cpop hcp
    rw [← hi] at hnofpu hcpu hnoflush hlegal
    have hno : ¬integer := fun h => absurd (hcp.symm.trans h.2) Bool.noConfusion
    have trapped (h : watch ∧ above ∨ quiet) : step s = (cpEnabled u (.trap .cpException u)).out :=
      ((outranked (h.imp_left (And.imp_right .inl))).1 (by simp [hu, hnofp])).trans (congrArg Res.out (if_pos hcp))
    refine ⟨fun h hec => watched h ?_, fun h hec => ?_, fun h hec => ?_⟩
    · rintro ((hl | hill | ⟨hfpu, -⟩ | ⟨-, hoff⟩ | ⟨⟨rs1, o, hflush⟩, -⟩) | ⟨-, hint⟩)
      · exact hl (.inl (hlegal u).1)
      · exact absurd ((hlegal u).2.symm.trans hill) Bool.noConfusion
      · exact absurd (hnofpu.symm.trans hfpu) Bool.noConfusion
      · exact absurd (hec.symm.trans hoff) Bool.noConfusion
      · exact hnoflush rs1 o hflush
      · exact hno hint
    · rw [trapped (h.imp_left fun h => ⟨h, .inr (.inr (.inr (.inl ⟨hcpu, hec⟩)))⟩)]
      exact congrArg Res.out (cpEnabled_off _ hec)
    · rw [trapped (.inr h)]
      exact congrArg Res.out (cpEnabled_on _ hec)

end Sys2Proof.Machine
end

section
/-! When a delayed write commits, what it then writes, and which instructions its hazard meets
(70_reset_and_hazards.md R820; 43_state_regs_misc.md R573 to R575). -/

namespace Sys2Proof.Machine

/-! ### The turns of a lone delayed write -/

theorem tickPending_waits {s : State} {r : StateReg} {v : Word} {d : Nat} (h : s.pending = [⟨r, v, d + 2⟩]) :
    tickPending s = { s with pending := [⟨r, v, d + 1⟩] } := by
  unfold tickPending
  rw [h]
  rfl

theorem tickPending_commits {s : State} {r : StateReg} {v : Word} (h : s.pending = [⟨r, v, 1⟩]) :
    tickPending s = { commit s ⟨r, v, 0⟩ with pending := [] } := by
  unfold tickPending
  rw [h]
  rfl

theorem tickTimes_waits (n : Nat) {s : State} {r : StateReg} {v : Word} {d : Nat} (h : s.pending = [⟨r, v, n + d + 1⟩]) :
    tickTimes n s = { s with pending := [⟨r, v, d + 1⟩] } := by
  induction n generalizing s with
  | zero =>
    rw [Nat.zero_add] at h
    rw [← h]
    rfl
  | succ n ih =>
    have hturn : tickPending s = { s with pending := [⟨r, v, n + d + 1⟩] } :=
      tickPending_waits (h.trans (by rw [show n + 1 + d + 1 = n + d + 2 by omega]))
    rw [tickTimes, hturn]
    exact ih rfl

theorem tickTimes_commits (d : Nat) {s : State} {r : StateReg} {v : Word} (h : s.pending = [⟨r, v, d + 1⟩]) :
    tickTimes (d + 1) s = { commit s ⟨r, v, 0⟩ with pending := [] } := by
  induction d generalizing s with
  | zero => exact tickPending_commits h
  | succ d ih =>
    rw [tickTimes, tickPending_waits h]
    exact (ih rfl).trans (by rw [commit_withPending])

/-! ### What a commit writes -/

theorem tba_bits (v : Word) : v.extractLsb' 12 20 = BitVec.ofNat 20 (v.toNat / 4096) := by
  apply BitVec.eq_of_toNat_eq
  simp [BitVec.extractLsb'_toNat, Nat.shiftRight_eq_div_pow]

theorem pil_bits (v : Word) : (v.extractLsb' 8 4).toNat = v.toNat / 256 % 16 := by
  simp [BitVec.extractLsb'_toNat, Nat.shiftRight_eq_div_pow]

theorem commit_wim (s : State) (v : Word) (k : Nat) :
    commit s ⟨.wim, v, k⟩ = { s with wim := BitVec.ofNat 32 (v.toNat % 2 ^ s.cfg.nwindows) } := by
  rw [← and_wimMask]
  rfl

theorem commit_tbr (s : State) (v : Word) (k : Nat) :
    commit s ⟨.tbr, v, k⟩ = { s with tbr := { s.tbr with tba := BitVec.ofNat 20 (v.toNat / 4096) } } := by
  rw [← tba_bits]
  rfl

/-! ### The fields a write changes -/

theorem mem_unless {p : Prop} [Decidable p] (f g : StateField) : f ∈ (if p then [] else [g]) ↔ ¬p ∧ f = g := by
  split <;> simp_all

theorem mem_psrChanges (a b : Psr) :
    (StateField.cwp ∈ psrChanges a b ↔ b.cwp ≠ a.cwp) ∧ (StateField.icc ∈ psrChanges a b ↔ b.icc ≠ a.icc) ∧
      (StateField.et ∈ psrChanges a b ↔ b.et ≠ a.et) ∧ (StateField.s ∈ psrChanges a b ↔ b.s ≠ a.s) ∧
        (StateField.ps ∈ psrChanges a b ↔ b.ps ≠ a.ps) ∧ (StateField.pil ∈ psrChanges a b ↔ b.pil ≠ a.pil) ∧
          (StateField.ef ∈ psrChanges a b ↔ b.ef ≠ a.ef) ∧ (StateField.ec ∈ psrChanges a b ↔ b.ec ≠ a.ec) := by
  simp only [psrChanges, List.mem_append, mem_unless, reduceCtorEq, and_false, and_true, or_false, false_or, ne_eq,
    eq_comm (a := a.cwp), eq_comm (a := a.icc), eq_comm (a := a.et), eq_comm (a := a.s), eq_comm (a := a.ps),
    eq_comm (a := a.pil), eq_comm (a := a.ef), eq_comm (a := a.ec), and_self]

theorem commitAll_cfg (s : State) : (commitAll s).cfg = s.cfg := by rw [commitAll_rest]

theorem changedFields_psr (s : State) (v : Word) (k : Nat) :
    changedFields s .psr v = psrChanges (effectivePsr s) (commit s ⟨.psr, v, k⟩).psr := by
  have hb : (commit (commitAll s) ⟨.psr, v, 0⟩).psr = (commit s ⟨.psr, v, k⟩).psr := by
    show (writePsr (commitAll s) v).psr = (writePsr s v).psr
    unfold writePsr
    rw [commitAll_cfg]
  show psrChanges _ _ = _
  rw [hb]
  rfl

theorem y_changes (s : State) (v : Word) : StateField.y ∈ changedFields s .y v ↔ (commitAll s).y ≠ v := by
  refine (mem_unless ..).trans ?_
  rw [and_iff_left rfl, ne_comm]
  rfl

theorem wim_changes (s : State) (v : Word) :
    StateField.wim ∈ changedFields s .wim v ↔ (commitAll s).wim ≠ BitVec.ofNat 32 (v.toNat % 2 ^ s.cfg.nwindows) := by
  refine (mem_unless ..).trans ?_
  rw [commit_wim, commitAll_cfg]
  rw [and_iff_left rfl, ne_comm]

theorem tba_changes (s : State) (v : Word) :
    StateField.tba ∈ changedFields s .tbr v ↔ (commitAll s).tbr.tba ≠ BitVec.ofNat 20 (v.toNat / 4096) := by
  refine (mem_unless ..).trans ?_
  rw [commit_tbr, and_iff_left rfl, ne_comm]
  exact not_congr ⟨congrArg Tbr.tba, fun h => congrArg (fun x => { (commitAll s).tbr with tba := x }) h⟩

theorem asr_changes (s : State) (v : Word) (n : Fin 16) :
    StateField.asr n ∈ changedFields s (.asr n) v ↔ (commitAll s).asr[n] ≠ v := by
  have hset : (commit (commitAll s) ⟨.asr n, v, 0⟩).asr[n] = v := Vector.getElem_set_self n.isLt
  refine (mem_unless ..).trans ?_
  rw [hset, and_iff_left rfl, ne_comm]

/-! ### The fields a word reads and writes -/

/-- Is r[n] a source by rs1 or, without an immediate, by rs2. -/
def WordSources (w n : Nat) : Prop := n = w / 2 ^ 14 % 32 ∨ w / 2 ^ 13 % 2 = 0 ∧ n = w % 32

/-- Is r[n] named by a word's fields (43_state_regs_misc.md R575 (2)). -/
def WordNames (w n : Nat) : Prop :=
  w / 2 ^ 30 = 1 ∧ n = 15 ∨ w / 2 ^ 30 = 0 ∧ w / 2 ^ 22 % 8 = 4 ∧ n = w / 2 ^ 25 % 32 ∨
    w / 2 ^ 30 = 3 ∧ (WordSources w n ∨ w / 2 ^ 19 % 64 < 0x20 ∧ n = w / 2 ^ 25 % 32) ∨
      w / 2 ^ 30 = 2 ∧
        ((w / 2 ^ 19 % 64 < 0x28 ∨ 0x2C ≤ w / 2 ^ 19 % 64 ∧ w / 2 ^ 19 % 64 < 0x30 ∨ w / 2 ^ 19 % 64 = 0x38 ∨
            0x3C ≤ w / 2 ^ 19 % 64) ∧ (WordSources w n ∨ n = w / 2 ^ 25 % 32) ∨
          0x28 ≤ w / 2 ^ 19 % 64 ∧ w / 2 ^ 19 % 64 ≤ 0x2B ∧ n = w / 2 ^ 25 % 32 ∨
            (0x30 ≤ w / 2 ^ 19 % 64 ∧ w / 2 ^ 19 % 64 ≤ 0x33 ∨ 0x39 ≤ w / 2 ^ 19 % 64 ∧ w / 2 ^ 19 % 64 ≤ 0x3B) ∧
              WordSources w n)

/-- Is a word arithmetic, with one of some op3. -/
def WordArith (w : Nat) (xs : List Nat) : Prop := w / 2 ^ 30 = 2 ∧ w / 2 ^ 19 % 64 ∈ xs

/-- Is an arithmetic word privileged (60_exceptions.md R713). -/
def WordPrivileged (c : Config) (w : Nat) : Prop :=
  WordArith w [0x29, 0x2A, 0x2B, 0x31, 0x32, 0x33, 0x39] ∨
    WordArith w [0x28] ∧ w / 2 ^ 14 % 32 ≠ 0 ∧ ¬(w / 2 ^ 14 % 32 = 15 ∧ w / 2 ^ 25 % 32 = 0) ∧
        c.asrPrivileged.getLsbD (w / 2 ^ 14 % 32) = true ∨
      WordArith w [0x30] ∧ w / 2 ^ 25 % 32 ≠ 0 ∧ c.asrPrivileged.getLsbD (w / 2 ^ 25 % 32) = true

/-- Does a word read a field of the state registers (43_state_regs_misc.md R575 (2)). -/
def WordReads (c : Config) (w : Nat) (f : StateField) : Prop :=
  match f with
  | .cwp => (∃ n, 8 ≤ n ∧ WordNames w n) ∨ WordArith w [0x29, 0x39, 0x3A, 0x3C, 0x3D]
  | .icc => w / 2 ^ 30 = 0 ∧ w / 2 ^ 22 % 8 = 2 ∨ WordArith w [0x08, 0x0C, 0x18, 0x1C, 0x24, 0x29, 0x3A]
  | .y => WordArith w [0x0E, 0x0F, 0x1E, 0x1F, 0x24] ∨ WordArith w [0x28] ∧ w / 2 ^ 14 % 32 = 0
  | .wim => WordArith w [0x2A, 0x39, 0x3C, 0x3D]
  | .tba => WordArith w [0x2B]
  | .asr k => WordArith w [0x28] ∧ w / 2 ^ 14 % 32 = 16 + k.val
  | .s => w / 2 ^ 30 = 3 ∨ WordPrivileged c w
  | .ef =>
    w / 2 ^ 30 = 0 ∧ w / 2 ^ 22 % 8 = 6 ∨ WordArith w [0x34, 0x35] ∨ WordArith w [0x29] ∨
      w / 2 ^ 30 = 3 ∧ w / 2 ^ 19 % 64 ∈ [0x20, 0x21, 0x23, 0x24, 0x25, 0x26, 0x27]
  | .ec =>
    w / 2 ^ 30 = 0 ∧ w / 2 ^ 22 % 8 = 7 ∨ WordArith w [0x36, 0x37] ∨ WordArith w [0x29] ∨
      w / 2 ^ 30 = 3 ∧ w / 2 ^ 19 % 64 ∈ [0x30, 0x31, 0x33, 0x34, 0x35, 0x36, 0x37]
  | .pil => WordArith w [0x29]
  | .ps => WordArith w [0x29] ∨ WordArith w [0x39]
  | .et => WordArith w [0x29] ∨ WordArith w [0x39]

/-- Does a word write a field of a state register on its own (43_state_regs_misc.md R575 (1)). -/
def WordWrites (w : Nat) (r : StateReg) : Prop :=
  match r with
  | .y => WordArith w [0x0A, 0x0B, 0x1A, 0x1B, 0x24]
  | .psr => WordArith w [0x39, 0x3C, 0x3D] ∨
      w / 2 ^ 30 = 2 ∧ 0x10 ≤ w / 2 ^ 19 % 64 ∧ w / 2 ^ 19 % 64 ≤ 0x24 ∧ w / 2 ^ 19 % 64 ≠ 0x19 ∧
        w / 2 ^ 19 % 64 ≠ 0x1D
  | _ => False

/-! ### The registers a word names -/

/-- The second operand's register, if the word has no immediate. -/
def secondReg (low : BitVec 14) : List RegNum := if low.getLsbD 13 then [] else [low.extractLsb' 0 5]

theorem secondReg_names (low : BitVec 14) (n : Nat) :
    (∃ r ∈ secondReg low, n = r.toNat) ↔ low.toNat / 2 ^ 13 = 0 ∧ n = low.toNat % 32 := by
  have hlt := low.isLt
  have hbit : low.getLsbD 13 = true ↔ low.toNat / 2 ^ 13 % 2 = 1 := by
    simp [BitVec.getLsbD, Nat.testBit_eq_decide_div_mod_eq]
  have hlow : (low.extractLsb' 0 5).toNat = low.toNat % 32 := by simp [BitVec.extractLsb'_toNat]
  unfold secondReg
  split
  case isTrue h =>
    have := hbit.mp h
    simp only [List.not_mem_nil, false_and, exists_false, false_iff]
    omega
  case isFalse h =>
    have := mt hbit.mpr h
    simp only [List.mem_singleton, exists_eq_left, hlow]
    omega

theorem sources_names (rs1 : RegNum) (low : BitVec 14) (n : Nat) :
    (∃ r ∈ rs1 :: secondReg low, n = r.toNat) ↔ n = rs1.toNat ∨ low.toNat / 2 ^ 13 = 0 ∧ n = low.toNat % 32 := by
  rw [← secondReg_names]
  simp only [List.mem_cons, or_and_right, exists_or, exists_eq_left]

theorem append_names (xs ys : List RegNum) (n : Nat) :
    (∃ r ∈ xs ++ ys, n = r.toNat) ↔ (∃ r ∈ xs, n = r.toNat) ∨ ∃ r ∈ ys, n = r.toNat := by
  simp only [List.mem_append, or_and_right, exists_or]

theorem single_names (r : RegNum) (n : Nat) : (∃ x ∈ [r], n = x.toNat) ↔ n = r.toNat := by
  simp

theorem when_names (p : Prop) [Decidable p] (r : RegNum) (n : Nat) :
    (∃ x ∈ if p then [r] else [], n = x.toNat) ↔ p ∧ n = r.toNat := by
  split
  case isTrue h => rw [single_names, and_iff_right h]
  case isFalse h => simp [h]

theorem namedRegs_iff (i : Instr) (n : Nat) :
    (∃ r ∈ namedRegs i, n = r.toNat) ↔ WordNames (encode i).toNat n := by
  unfold namedRegs encode WordNames WordSources
  cases encodeFormat i with
  | call d =>
    rw [pack_call]
    simp
  | fmt2 top op2 imm =>
    obtain ⟨hop, hop2, hrd⟩ := pack_fmt2 top op2 imm
    have htop : top.extractLsb' 0 5 = top := by simp
    rw [hop, hop2, hrd, when_names, htop, ← BitVec.toNat_inj]
    simp
  | fmt3 mem rd op3 rs1 low =>
    obtain ⟨hop, hop3, hrd, hrs1, himm, hrs2⟩ := pack_fmt3 mem rd op3 rs1 low
    have hsources := sources_names rs1 low n
    rw [hop, hop3, hrd, hrs1, himm, hrs2]
    cases mem with
    | true =>
      simp only [if_true, append_names, when_names]
      rw [show (∃ r ∈ rs1 :: if low.getLsbD 13 = true then [] else [low.extractLsb' 0 5], n = r.toNat) ↔ _ from hsources]
      simp
      tauto
    | false =>
      have hlt := op3.isLt
      simp only [Bool.false_eq_true, if_false]
      split
      case _ h | _ h | _ h | _ h => simp [h]
      case _ h | _ h | _ h | _ h => simp [h]
      case _ h28 h29 h2A h2B h34 h35 h36 h37 =>
        change op3.toNat ≠ 0x28 at h28
        change op3.toNat ≠ 0x29 at h29
        change op3.toNat ≠ 0x2A at h2A
        change op3.toNat ≠ 0x2B at h2B
        change op3.toNat ≠ 0x34 at h34
        change op3.toNat ≠ 0x35 at h35
        change op3.toNat ≠ 0x36 at h36
        change op3.toNat ≠ 0x37 at h37
        rw [append_names, show (∃ r ∈ rs1 :: if low.getLsbD 13 = true then [] else [low.extractLsb' 0 5], n = r.toNat) ↔ _
          from hsources]
        generalize hs : (n = rs1.toNat ∨ low.toNat / 2 ^ 13 = 0 ∧ n = low.toNat % 32) = sources
        have hregs : ¬(0x28 ≤ op3.toNat ∧ op3.toNat ≤ 0x2B) := by omega
        by_cases hn : 0x30 ≤ op3.toNat ∧ op3.toNat ≤ 0x3B ∧ op3.toNat ≠ 0x38
        · have hall : ¬(op3.toNat < 0x28 ∨ 0x2C ≤ op3.toNat ∧ op3.toNat < 0x30 ∨ op3.toNat = 0x38 ∨ 0x3C ≤ op3.toNat) := by
            omega
          have honly : 0x30 ≤ op3.toNat ∧ op3.toNat ≤ 0x33 ∨ 0x39 ≤ op3.toNat ∧ op3.toNat ≤ 0x3B := by omega
          rw [if_pos hn, ← and_assoc (a := 0x28 ≤ op3.toNat)]
          simp [hall, hregs, honly]
        · have hall : op3.toNat < 0x28 ∨ 0x2C ≤ op3.toNat ∧ op3.toNat < 0x30 ∨ op3.toNat = 0x38 ∨ 0x3C ≤ op3.toNat := by
            omega
          have honly : ¬(0x30 ≤ op3.toNat ∧ op3.toNat ≤ 0x33 ∨ 0x39 ≤ op3.toNat ∧ op3.toNat ≤ 0x3B) := by omega
          rw [if_neg hn, single_names, ← and_assoc (a := 0x28 ≤ op3.toNat)]
          simp [hall, hregs, honly, or_comm]

/-! ### The fields a word reads -/

/-- The fields that the row of a format reads. -/
def formatReads (x : Format) : List StateField :=
  match x with
  | .fmt2 _ op2 _ => if op2 = 2#3 then [.icc] else []
  | .fmt3 true _ _ _ _ => [.s]
  | .fmt3 false _ op3 rs1 _ => arithReads op3 rs1
  | .call _ => []

theorem mem_readFields (c : Config) (i : Instr) (f : StateField) :
    f ∈ readFields c i ↔
      (∃ n, 8 ≤ n ∧ WordNames (encode i).toNat n) ∧ f = .cwp ∨ usesFpu i = true ∧ f = .ef ∨ usesCp i = true ∧ f = .ec ∨
        isPrivileged c i = true ∧ f = .s ∨ f ∈ formatReads (encodeFormat i) := by
  have heq : readFields c i = (if (namedRegs i).any (fun n => decide (8 ≤ n.toNat)) then [StateField.cwp] else [])
      ++ (if usesFpu i then [StateField.ef] else []) ++ (if usesCp i then [StateField.ec] else [])
      ++ (if isPrivileged c i then [StateField.s] else [])
      ++ formatReads (encodeFormat i) := by
    unfold readFields
    generalize encodeFormat i = x
    cases x with
    | call d => rfl
    | fmt2 top op2 imm => rfl
    | fmt3 mem rd op3 rs1 low => cases mem <;> rfl
  have hwindowed : (namedRegs i).any (fun n => decide (8 ≤ n.toNat)) = true ↔
      ∃ n, 8 ≤ n ∧ WordNames (encode i).toNat n := by
    simp only [← namedRegs_iff, List.any_eq_true, decide_eq_true_iff]
    exact ⟨fun ⟨r, hr, hn⟩ => ⟨_, hn, r, hr, rfl⟩, fun ⟨_, hn, r, hr, h⟩ => ⟨r, hr, h ▸ hn⟩⟩
  have hwhen (p : Prop) [Decidable p] (g : StateField) : f ∈ (if p then [g] else []) ↔ p ∧ f = g := by
    split <;> simp_all
  rw [heq]
  simp only [List.mem_append, hwhen, hwindowed, or_assoc]

theorem mem_arithReads (op3 : BitVec 6) (rs1 : RegNum) :
    (StateField.cwp ∈ arithReads op3 rs1 ↔ op3.toNat ∈ [0x29, 0x39, 0x3A, 0x3C, 0x3D]) ∧
      (StateField.icc ∈ arithReads op3 rs1 ↔ op3.toNat ∈ [0x08, 0x0C, 0x18, 0x1C, 0x24, 0x29, 0x3A]) ∧
      (StateField.y ∈ arithReads op3 rs1 ↔ op3.toNat ∈ [0x0E, 0x0F, 0x1E, 0x1F, 0x24] ∨ op3.toNat = 0x28 ∧ rs1.toNat = 0) ∧
      (StateField.wim ∈ arithReads op3 rs1 ↔ op3.toNat ∈ [0x2A, 0x39, 0x3C, 0x3D]) ∧
      (StateField.tba ∈ arithReads op3 rs1 ↔ op3.toNat = 0x2B) ∧
      (∀ k : Fin 16, StateField.asr k ∈ arithReads op3 rs1 ↔ op3.toNat = 0x28 ∧ rs1.toNat = 16 + k.val) ∧
      (StateField.s ∈ arithReads op3 rs1 ↔ op3.toNat = 0x29) ∧
      (StateField.ef ∈ arithReads op3 rs1 ↔ op3.toNat = 0x29) ∧
      (StateField.ec ∈ arithReads op3 rs1 ↔ op3.toNat = 0x29) ∧
      (StateField.pil ∈ arithReads op3 rs1 ↔ op3.toNat = 0x29) ∧
      (StateField.ps ∈ arithReads op3 rs1 ↔ op3.toNat = 0x29 ∨ op3.toNat = 0x39) ∧
      (StateField.et ∈ arithReads op3 rs1 ↔ op3.toNat = 0x29 ∨ op3.toNat = 0x39) := by
  unfold arithReads
  split
  case h_10 h =>
    have hlt := rs1.isLt
    by_cases h0 : rs1 = 0#5
    · rw [if_pos h0]
      have hnone (k : Fin 16) : 0 ≠ 16 + k.val := by omega
      simp [h, h0, hnone]
    · have hne : rs1.toNat ≠ 0 := fun h => h0 (BitVec.eq_of_toNat_eq h)
      rw [if_neg h0]
      split
      case isTrue h16 =>
        have hindex (k : Fin 16) : k = Fin.ofNat 16 (rs1.toNat - 16) ↔ rs1.toNat = 16 + k.val := by
          rw [Fin.ext_iff, Fin.val_ofNat]
          omega
        simp only [List.mem_singleton, StateField.asr.injEq, hindex]
        simp [h, hne]
      case isFalse h16 =>
        have hnone (k : Fin 16) : rs1.toNat ≠ 16 + k.val := by omega
        simp [h, hne, hnone]
  case h_18 => simp_all
  all_goals simp [*]

/-! ### The privileged words -/

theorem isPrivileged_fmt3 {c : Config} {i : Instr} (h : isPrivileged c i = true) :
    ∃ mem rd op3 rs1 low, encodeFormat i = .fmt3 mem rd op3 rs1 low := by
  obtain ⟨rd, rs1, n, o, alt, h | ⟨-, h⟩⟩ := (isPrivileged_iff c i).mp h
  · have all : ∀ j, PrivilegedInstr j rd rs1 o alt → ∃ mem rd op3 rs1 low, encodeFormat j = .fmt3 mem rd op3 rs1 low := by
      have row {j : Instr} {mem : Bool} {rd : RegNum} {op3 : BitVec 6} {rs1 : RegNum} {low : BitVec 14}
          (h : encodeFormat j = .fmt3 mem rd op3 rs1 low) :
          ∃ mem rd op3 rs1 low, encodeFormat j = .fmt3 mem rd op3 rs1 low := ⟨mem, rd, op3, rs1, low, h⟩
      unfold PrivilegedInstr
      simp only [List.forall_mem_cons, List.not_mem_nil, false_imp_iff, implies_true, and_true]
      exact ⟨row rfl, row rfl, row rfl, row rfl, row rfl, row rfl, row rfl, row rfl, row rfl, row rfl, row rfl, row rfl,
        row rfl, row rfl, row rfl, row rfl, row rfl, row rfl, row rfl, row rfl, row rfl⟩
    exact all i h
  · rcases List.mem_pair.mp h with rfl | rfl
    · exact ⟨_, _, _, _, _, rfl⟩
    · exact ⟨_, _, _, _, _, rfl⟩

theorem fpop1_unprivileged (c : Config) (rd rs1 : RegNum) (opf : BitVec 9) (rs2 : RegNum) :
    isPrivileged c (decodeFpop1 rd rs1 opf rs2) = false := by
  unfold decodeFpop1
  split <;> rfl

theorem fpop2_unprivileged (c : Config) (rd rs1 : RegNum) (opf : BitVec 9) (rs2 : RegNum) :
    isPrivileged c (decodeFpop2 rd rs1 opf rs2) = false := by
  unfold decodeFpop2
  split <;> rfl

theorem ticc_unprivileged (c : Config) (cond : BitVec 4) (rs1 : RegNum) (o : TrapOperand) :
    isPrivileged c (decodeTicc cond rs1 o) = false := by
  unfold decodeTicc
  split <;> rfl

theorem toNat_eq_zero_iff (n : RegNum) : n.toNat = 0 ↔ n = 0#5 := (BitVec.toNat_inj (y := 0#5))

theorem isPrivileged_decodeArith (c : Config) (rd : RegNum) (op3 : BitVec 6) (rs1 : RegNum) (low : BitVec 14) :
    isPrivileged c (decodeArith rd op3 rs1 low) = true ↔
      op3.toNat ∈ [0x29, 0x2A, 0x2B, 0x31, 0x32, 0x33, 0x39] ∨
        op3.toNat = 0x28 ∧ rs1.toNat ≠ 0 ∧ ¬(rs1.toNat = 15 ∧ rd.toNat = 0) ∧ c.asrPrivileged.getLsbD rs1.toNat = true ∨
          op3.toNat = 0x30 ∧ rd.toNat ≠ 0 ∧ c.asrPrivileged.getLsbD rd.toNat = true := by
  unfold decodeArith
  split
  case h_37 h =>
    have hbar : rs1.toNat = 15 ∧ rd.toNat = 0 ↔ rs1 = 15#5 ∧ rd = 0#5 :=
      and_congr (BitVec.toNat_inj (y := 15#5)) (toNat_eq_zero_iff rd)
    rw [h, hbar, ne_eq, toNat_eq_zero_iff]
    by_cases h0 : rs1 = 0#5
    · simp [h0, isPrivileged]
    · by_cases hb : rs1 = 15#5 ∧ rd = 0#5
      · simp [hb, isPrivileged]
      · rw [if_neg h0, if_neg hb]
        simp [h0, hb, isPrivileged]
  case h_41 h =>
    rw [h, ne_eq, toNat_eq_zero_iff rd]
    by_cases h0 : rd = 0#5
    · simp [h0, isPrivileged]
    · have hne : rd.toNat ≠ 0 := mt (toNat_eq_zero_iff rd).mp h0
      simp [h0, hne, isPrivileged]
  case h_45 h => simp [h, fpop1_unprivileged]
  case h_46 h => simp [h, fpop2_unprivileged]
  case h_51 h => simp [h, ticc_unprivileged]
  all_goals simp_all [isPrivileged]

/-! ### The fields a word writes -/

theorem mem_arithWrites (op3 : BitVec 6) :
    ((∃ f ∈ arithWrites op3, fieldReg f = .y) ↔ op3.toNat ∈ [0x0A, 0x0B, 0x1A, 0x1B, 0x24]) ∧
      ((∃ f ∈ arithWrites op3, fieldReg f = .psr) ↔ op3.toNat ∈ [0x39, 0x3C, 0x3D] ∨
        0x10 ≤ op3.toNat ∧ op3.toNat ≤ 0x24 ∧ op3.toNat ≠ 0x19 ∧ op3.toNat ≠ 0x1D) ∧
      ∀ f ∈ arithWrites op3, fieldReg f = .y ∨ fieldReg f = .psr := by
  decide +revert

theorem not_wordWrites {w : Nat} (h : w / 2 ^ 30 ≠ 2) (r : StateReg) : ¬WordWrites w r := by
  cases r with
  | y => exact fun hw => h hw.1
  | psr => exact fun hw => hw.elim (fun hw => h hw.1) fun hw => h hw.1
  | wim | tbr | asr n => exact id

theorem writtenFields_iff (i : Instr) (r : StateReg) :
    (∃ f ∈ writtenFields i, fieldReg f = r) ↔ WordWrites (encode i).toNat r := by
  unfold writtenFields encode
  have none {x : Format} (h : (pack x).toNat / 2 ^ 30 ≠ 2) :
      (∃ f ∈ ([] : List StateField), fieldReg f = r) ↔ WordWrites (pack x).toNat r := by
    simpa using not_wordWrites h r
  cases encodeFormat i with
  | call d => exact none (by rw [pack_call]; decide)
  | fmt2 top op2 imm => exact none (by rw [(pack_fmt2 ..).1]; decide)
  | fmt3 mem rd op3 rs1 low =>
    obtain ⟨hop, hop3, -⟩ := pack_fmt3 mem rd op3 rs1 low
    obtain ⟨hy, hpsr, hother⟩ := mem_arithWrites op3
    cases mem with
    | true => exact none (by rw [hop]; decide)
    | false =>
      cases r with
      | y =>
        rw [WordWrites, WordArith, hop, hop3]
        exact hy.trans (by simp)
      | psr =>
        rw [WordWrites, WordArith, hop, hop3]
        exact hpsr.trans (by simp)
      | wim | tbr | asr n =>
        refine ⟨fun ⟨f, hf, h⟩ => ?_, False.elim⟩
        rcases hother f hf with h' | h' <;> cases h.symm.trans h'

theorem mem_formatReads (i : Instr) (f : StateField) :
    f ∈ formatReads (encodeFormat i) ↔
      ((encode i).toNat / 2 ^ 30 = 0 ∧ (encode i).toNat / 2 ^ 22 % 8 = 2) ∧ f = .icc ∨
        (encode i).toNat / 2 ^ 30 = 3 ∧ f = .s ∨
          (encode i).toNat / 2 ^ 30 = 2 ∧
            f ∈ arithReads (BitVec.ofNat 6 ((encode i).toNat / 2 ^ 19 % 64)) (BitVec.ofNat 5 ((encode i).toNat / 2 ^ 14 % 32)) := by
  unfold encode
  cases encodeFormat i with
  | call d =>
    rw [pack_call]
    simp [formatReads]
  | fmt2 top op2 imm =>
    obtain ⟨hop, hop2, -⟩ := pack_fmt2 top op2 imm
    rw [hop, hop2]
    have htwo : op2.toNat = 2 ↔ op2 = 2#3 := by rw [← BitVec.toNat_inj]; rfl
    by_cases h : op2 = 2#3
    · simp [formatReads, h]
    · simp [formatReads, htwo, h]
  | fmt3 mem rd op3 rs1 low =>
    obtain ⟨hop, hop3, hrd, hrs1, -⟩ := pack_fmt3 mem rd op3 rs1 low
    rw [hop, hop3, hrs1, BitVec.ofNat_toNat, BitVec.ofNat_toNat, BitVec.setWidth_eq, BitVec.setWidth_eq]
    cases mem with
    | true => simp [formatReads]
    | false => simp [formatReads]

theorem not_wordPrivileged {w : Nat} (h : w / 2 ^ 30 ≠ 2) (c : Config) : ¬WordPrivileged c w := by
  rintro (hw | ⟨hw, -⟩ | ⟨hw, -⟩)
  · exact h hw.1
  · exact h hw.1
  · exact h hw.1

theorem isPrivileged_word {c : Config} {i : Instr} (hw : i.wellFormed = true) (hop : (encode i).toNat / 2 ^ 30 ≠ 3) :
    isPrivileged c i = true ↔ WordPrivileged c (encode i).toNat := by
  have other {x : Format} (hf : encodeFormat i = x) (hx : ∀ mem rd op3 rs1 low, x ≠ .fmt3 mem rd op3 rs1 low)
      (hop : (pack x).toNat / 2 ^ 30 ≠ 2) : isPrivileged c i = true ↔ WordPrivileged c (pack x).toNat := by
    refine iff_of_false (fun h => ?_) (not_wordPrivileged hop c)
    obtain ⟨mem, rd, op3, rs1, low, hf'⟩ := isPrivileged_fmt3 h
    exact hx mem rd op3 rs1 low (hf.symm.trans hf')
  have hi := decodeFormat_encodeFormat i hw
  unfold encode at hop ⊢
  cases hf : encodeFormat i with
  | call d => exact other hf (fun _ _ _ _ _ h => Format.noConfusion h) (by rw [pack_call]; decide)
  | fmt2 top op2 imm => exact other hf (fun _ _ _ _ _ h => Format.noConfusion h) (by rw [(pack_fmt2 ..).1]; decide)
  | fmt3 mem rd op3 rs1 low =>
    rw [hf] at hi hop
    obtain ⟨hop', hop3, hrd, hrs1, -⟩ := pack_fmt3 mem rd op3 rs1 low
    cases mem with
    | true => exact absurd hop' hop
    | false =>
      rw [← hi, WordPrivileged, WordArith, WordArith, WordArith, hop', hop3, hrd, hrs1]
      exact (isPrivileged_decodeArith ..).trans (by simp)

/-! ### The hazard -/

theorem reads_iff {c : Config} {i : Instr} (hw : i.wellFormed = true) (f : StateField) :
    f ∈ readFields c i ↔ WordReads c (encode i).toNat f := by
  rw [mem_readFields, mem_formatReads]
  generalize hop3 : (encode i).toNat / 2 ^ 19 % 64 = op3
  generalize hrs1 : (encode i).toNat / 2 ^ 14 % 32 = rs1
  have hop3n : (BitVec.ofNat 6 op3).toNat = op3 := by rw [BitVec.toNat_ofNat]; omega
  have hrs1n : (BitVec.ofNat 5 rs1).toNat = rs1 := by rw [BitVec.toNat_ofNat]; omega
  obtain ⟨hcwp, hicc, hy, hwim, htba, hasr, hs, hef, hec, hpil, hps, het⟩ :=
    mem_arithReads (BitVec.ofNat 6 op3) (BitVec.ofNat 5 rs1)
  rw [hop3n] at hcwp hicc hy hwim htba hs hef hec hpil hps het
  rw [hrs1n] at hy
  cases f with
  | cwp =>
    rw [hcwp, WordReads, WordArith, hop3]
    simp
  | icc =>
    rw [hicc, WordReads, WordArith, hop3]
    simp
  | y =>
    rw [hy, WordReads, WordArith, WordArith, hop3, hrs1]
    simp [and_or_left, and_assoc]
  | wim =>
    rw [hwim, WordReads, WordArith, hop3]
    simp
  | tba =>
    rw [htba, WordReads, WordArith, hop3]
    simp
  | asr k =>
    rw [hasr k, hop3n, hrs1n, WordReads, WordArith, hop3, hrs1]
    simp [and_assoc]
  | s =>
    rw [hs, WordReads, ← hop3]
    by_cases hop : (encode i).toNat / 2 ^ 30 = 3
    · simp only [hop, true_and, true_or, or_true]
    · have hrdpsr : (encode i).toNat / 2 ^ 30 = 2 ∧ (encode i).toNat / 2 ^ 19 % 64 = 0x29 → WordPrivileged c (encode i).toNat :=
        fun ⟨h, h'⟩ => .inl ⟨h, by rw [h']; decide⟩
      simp only [isPrivileged_word hw hop, hop, reduceCtorEq, and_false, and_true, false_or, or_iff_left_iff_imp]
      exact hrdpsr
  | ef =>
    rw [usesFpu_iff, hef, WordReads, WordArith, WordArith, hop3, List.mem_singleton]
    simp only [reduceCtorEq, and_false, and_true, false_or, or_assoc]
    rw [or_comm (a := _ ∧ op3 = 0x29)]
  | ec =>
    rw [usesCp_iff, hec, WordReads, WordArith, WordArith, hop3, List.mem_singleton]
    simp only [reduceCtorEq, and_false, and_true, false_or, or_assoc]
    rw [or_comm (a := _ ∧ op3 = 0x29)]
  | pil =>
    rw [hpil, WordReads, WordArith, hop3]
    simp
  | ps =>
    rw [hps, WordReads, WordArith, WordArith, hop3]
    simp [and_or_left]
  | et =>
    rw [het, WordReads, WordArith, WordArith, hop3]
    simp [and_or_left]

theorem wrHazard_iff {s : State} {i : Instr} (hw : i.wellFormed = true) :
    wrHazard s i = true ↔
      ∃ x ∈ s.recentWrites, (∃ f ∈ x.changed, WordReads s.cfg (encode i).toNat f) ∨ WordWrites (encode i).toNat x.reg := by
  unfold wrHazard
  simp only [List.any_eq_true, Bool.or_eq_true, List.contains_iff_mem, beq_iff_eq, reads_iff hw, writtenFields_iff]

/-- Settles O34: the turns by induction on the countdown; the hazard by the fields of the word, format by format. -/
theorem delayedWriteTurns : Obligations.DelayedWriteTurns := by
  refine ⟨fun s r v d n h => ⟨fun hn => ?_, tickTimes_commits d h⟩, fun s v n k => ⟨rfl, commit_wim s v k, commit_tbr s v k,
    rfl, ⟨rfl, rfl, rfl, pil_bits v, rfl, rfl, rfl, toNat_low v 5, rfl⟩, ?_,
    ⟨y_changes s v, wim_changes s v, tba_changes s v, asr_changes s v n⟩, fun _ _ => ⟨rfl, rfl⟩, fun i hw => wrHazard_iff hw⟩⟩
  · have hd : d + 1 = n + (d - n) + 1 := by omega
    rw [show d + 1 - n = d - n + 1 by omega]
    exact tickTimes_waits n (h.trans (by rw [hd]))
  · intro c a p
    rw [show c = psrChanges a p from changedFields_psr s v k]
    exact mem_psrChanges a p

end Sys2Proof.Machine
end

section
/-! What the Reference MMU's operations do: a fault is recorded, an entry maps a page, an access marks its entry
(21_reference_mmu.md R163 to R176, R186 to R192, R201). -/

namespace Sys2Proof.Machine

/-! ### The fault registers -/

theorem faultOverwrites_iff (recorded : Option FaultClass) (cls : FaultClass) :
    faultOverwrites recorded cls = false ↔
      recorded = some .table ∧ cls ≠ .table ∨ recorded = some .data ∧ cls = .instruction := by
  rcases recorded with _ | _ | _ | _ <;> cases cls <;> simp [faultOverwrites]

theorem recordFault_recorded (s : State) (cls : FaultClass) (level : BitVec 2) (access ft : BitVec 3) (bus : Bool)
    (va : Word) :
    FaultRecorded s.mmu (recordFault s cls level access ft bus va).mmu cls level access ft bus va ∧
      recordFault s cls level access ft bus va = { s with
        mmu := (recordFault s cls level access ft bus va).mmu
        freeDraws := (recordFault s cls level access ft bus va).freeDraws } := by
  by_cases h : faultOverwrites s.mmu.statusClass cls = true
  · have heq : recordFault s cls level access ft bus va = _ := if_pos h
    have hkept := mt (faultOverwrites_iff s.mmu.statusClass cls).mpr (by rw [h]; exact Bool.noConfusion)
    rw [heq]
    exact ⟨⟨fun hk => absurd hk hkept, fun _ => ⟨fun hb => if_neg (ne_true_of_eq_false hb), by simp [beq_eq_decide]⟩⟩, rfl⟩
  · have heq : recordFault s cls level access ft bus va = s := if_neg h
    rw [heq]
    exact ⟨⟨fun _ => rfl, fun hk => absurd ((faultOverwrites_iff ..).mp (Bool.eq_false_iff.mpr h)) hk⟩, rfl⟩

theorem recordFault_pdc (s : State) (cls : FaultClass) (level : BitVec 2) (access ft : BitVec 3) (bus : Bool)
    (va : Word) : (recordFault s cls level access ft bus va).mmu.pdc = s.mmu.pdc := by
  unfold recordFault
  split <;> rfl

/-! ### The fields of an entry -/

theorem entryType_iff (e : Word) (k : BitVec 2) : entryType e = k ↔ e.toNat % 4 = k.toNat := by
  rw [← BitVec.toNat_inj, entryType, toNat_low]
  rfl

theorem entryType_invalid (e : Word) : entryType e = 0#2 ↔ e.toNat % 4 = 0 := entryType_iff e 0#2

theorem entryType_ptd (e : Word) : entryType e = 1#2 ↔ e.toNat % 4 = 1 := entryType_iff e 1#2

theorem entryType_pte (e : Word) : entryType e = 2#2 ↔ e.toNat % 4 = 2 := entryType_iff e 2#2

theorem entryType_reserved (e : Word) : entryType e = 3#2 ↔ e.toNat % 4 = 3 := entryType_iff e 3#2

theorem regionShift_eq (k : Nat) :
    regionShift k = if k = 0 then 32 else if k = 1 then 24 else if k = 2 then 18 else 12 := by
  match k with
  | 0 => rfl
  | 1 => rfl
  | 2 => rfl
  | _ + 3 => rfl

theorem regionShift_bounds (k : Nat) : 12 ≤ regionShift k ∧ regionShift k ≤ 32 := by
  rw [regionShift_eq]
  split_ifs <;> decide

theorem sameRegion_iff (level : Nat) (a b : Word) :
    sameRegion level a b = true ↔ a.toNat / 2 ^ regionShift level = b.toNat / 2 ^ regionShift level := beq_iff_eq

theorem supervisorPage_iff (e : Word) : decide (6#3 ≤ entryAcc e) = true ↔ 6 ≤ (e.extractLsb' 2 3).toNat := by
  rw [decide_eq_true_iff]
  rfl

theorem nextPa_eq (e va : Word) (level : Nat) :
    nextPa e va level = (e.toNat / 4 * 64 +
      (if level = 0 then va.toNat / 2 ^ 24 else if level = 1 then va.toNat / 2 ^ 18 % 64 else va.toNat / 2 ^ 12 % 64) * 4)
        % 2 ^ 36 := by
  have he := e.isLt
  have hv := va.isLt
  have hp : (e.extractLsb' 2 30).toNat = e.toNat / 4 := by
    rw [BitVec.extractLsb'_toNat, Nat.shiftRight_eq_div_pow]
    omega
  have hi : tableIndex va level =
      if level = 0 then va.toNat / 2 ^ 24 else if level = 1 then va.toNat / 2 ^ 18 % 64 else va.toNat / 2 ^ 12 % 64 := by
    match level with
    | 0 =>
      rw [tableIndex, BitVec.extractLsb'_toNat, Nat.shiftRight_eq_div_pow]
      exact Nat.mod_eq_of_lt (by omega)
    | 1 =>
      rw [tableIndex, BitVec.extractLsb'_toNat, Nat.shiftRight_eq_div_pow]
      rfl
    | n + 2 =>
      show (va.extractLsb' 12 6).toNat = _
      rw [BitVec.extractLsb'_toNat, Nat.shiftRight_eq_div_pow]
      rfl
  rw [nextPa, hp, hi]

theorem entryPpn_toNat (e : Word) : (entryPpn e).toNat = e.toNat / 256 := by
  have := e.isLt
  rw [entryPpn, BitVec.extractLsb'_toNat, Nat.shiftRight_eq_div_pow]
  omega

/-- The page's address is its frame and the offset in its region (R174). -/
theorem pagePa_toNat {e : Word} {level : Nat} (va : Word)
    (h : e.toNat / 256 * 4096 % 2 ^ regionShift level = 0) :
    (pagePa e level va).toNat = e.toNat / 256 * 4096 + va.toNat % 2 ^ regionShift level := by
  obtain ⟨hlow, hhigh⟩ := regionShift_bounds level
  have hsplit : 2 ^ regionShift level = 2 ^ (regionShift level - 12) * 4096 := by
    rw [show 4096 = 2 ^ 12 by decide, ← Nat.pow_add, Nat.sub_add_cancel hlow]
  have haligned : ppnAligned e level = true := by
    rw [hsplit, Nat.mul_mod_mul_right] at h
    rw [ppnAligned, entryPpn_toNat, beq_iff_eq]
    omega
  have hoffset : va.toNat % 2 ^ regionShift level < 2 ^ regionShift level := Nat.mod_lt _ (Nat.two_pow_pos _)
  have hword : (BitVec.ofNat 36 (va.toNat % 2 ^ regionShift level)).toNat = va.toNat % 2 ^ regionShift level := by
    have := va.isLt
    have := Nat.mod_le va.toNat (2 ^ regionShift level)
    rw [BitVec.toNat_ofNat]
    omega
  rw [pagePa, if_pos haligned, BitVec.toNat_or, append_toNat, entryPpn_toNat, hword]
  rw [show (0#12).toNat = 0 from rfl, Nat.add_zero, show 2 ^ 12 = 4096 by decide]
  obtain ⟨q, hq⟩ := Nat.dvd_of_mod_eq_zero h
  rw [hq, ← Nat.two_pow_add_eq_or_of_lt hoffset]

/-! ### The page descriptor cache -/

theorem pdcEvict_sublist (s : State) : (pdcEvict s).mmu.pdc.Sublist s.mmu.pdc := by
  have h := (List.filter_sublist (p := fun x => !Config.pdcReplaced s.freeDraws x.2) (l := s.mmu.pdc.zipIdx)).map Prod.fst
  rwa [List.zipIdx_map_fst] at h

theorem contextMatches_iff (s : State) (x : PdcEntry) :
    contextMatches s x = true ↔ x.context = s.mmu.context ∨
      s.cfg.pdcIgnoresContext = true ∧ x.entry.toNat % 4 = 2 ∧ 6 ≤ (x.entry.extractLsb' 2 3).toNat := by
  unfold contextMatches
  rw [Bool.or_eq_true, Bool.and_eq_true, Bool.and_eq_true, beq_iff_eq, beq_iff_eq, entryType_pte, supervisorPage_iff,
    and_assoc]

theorem pdcMatches_iff (s : State) (va : Word) (x : PdcEntry) :
    pdcMatches s va x = true ↔
      (x.context = s.mmu.context ∨
        s.cfg.pdcIgnoresContext = true ∧ x.entry.toNat % 4 = 2 ∧ 6 ≤ (x.entry.extractLsb' 2 3).toNat) ∧
        x.va.toNat / 2 ^ regionShift x.level = va.toNat / 2 ^ regionShift x.level := by
  rw [pdcMatches, Bool.and_eq_true, contextMatches_iff, sameRegion_iff]

/-- Does a cached entry translate an address in the current context. -/
def Translates (s : State) (va : Word) (x : PdcEntry) : Prop :=
  x.entry.toNat % 4 = 2 ∧ x.va.toNat / 2 ^ regionShift x.level = va.toNat / 2 ^ regionShift x.level ∧
    (x.context = s.mmu.context ∨ s.cfg.pdcIgnoresContext = true ∧ 6 ≤ (x.entry.extractLsb' 2 3).toNat)

theorem translates_iff (s : State) (va : Word) (x : PdcEntry) :
    (entryType x.entry == 2#2 && pdcMatches s va x) = true ↔ Translates s va x := by
  rw [Bool.and_eq_true, beq_iff_eq, entryType_pte, pdcMatches_iff, Translates]
  constructor
  · rintro ⟨hp, hc | ⟨hi, -, ha⟩, hs⟩
    · exact ⟨hp, hs, .inl hc⟩
    · exact ⟨hp, hs, .inr ⟨hi, ha⟩⟩
  · rintro ⟨hp, hs, hc | ⟨hi, ha⟩⟩
    · exact ⟨hp, .inl hc, hs⟩
    · exact ⟨hp, .inr ⟨hi, hp, ha⟩, hs⟩

theorem pdcPte_none {s : State} {va : Word} (h : ∀ y ∈ s.mmu.pdc, ¬Translates s va y) : pdcPte s va = none :=
  List.find?_eq_none.mpr fun y hy ht => h y hy ((translates_iff s va y).mp ht)

theorem find_first {α : Type} {p : α → Bool} {xs before rest : List α} {x : α} (hxs : xs = before ++ x :: rest)
    (hb : ∀ y ∈ before, ¬p y = true) (hx : p x = true) : xs.find? p = some x := by
  rw [hxs]
  exact List.find?_eq_some_iff_append.mpr ⟨hx, before, rest, rfl, fun y hy => by simpa using hb y hy⟩

theorem pdcPte_first {s : State} {va : Word} {before rest : List PdcEntry} {x : PdcEntry}
    (hp : s.mmu.pdc = before ++ x :: rest) (hb : ∀ y ∈ before, ¬Translates s va y) (hx : Translates s va x) :
    pdcPte s va = some x :=
  find_first hp (fun y hy ht => hb y hy ((translates_iff s va y).mp ht)) ((translates_iff s va x).mpr hx)

/-! ### An access by an entry -/

theorem checkedAccess_allowed {s : State} {x : PdcEntry} {asi : BitVec 8} {va : Word} {store : Bool}
    (h : permissionFault (accessType asi store) (entryAcc x.entry) = 0#3) :
    checkedAccess s x asi va store = .ok (pagePa x.entry x.level va) x.level (markAccessed s x store) := if_pos h

theorem checkedAccess_refused {s : State} {x : PdcEntry} {asi : BitVec 8} {va : Word} {store : Bool}
    (h : permissionFault (accessType asi store) (entryAcc x.entry) ≠ 0#3) :
    checkedAccess s x asi va store =
      .fault (permissionFault (accessType asi store) (entryAcc x.entry)) (some (pagePa x.entry x.level va))
        (recordFault s (faultClass asi) (BitVec.ofNat 2 x.level) (accessType asi store)
          (permissionFault (accessType asi store) (entryAcc x.entry)) false va) := if_neg h

theorem missing_zero_iff (e bits : Word) : bits &&& ~~~e = 0#32 ↔ e &&& bits = bits := by
  constructor
  · intro h
    ext i hi
    have := congrArg (fun v : Word => v[i]) h
    simp only [BitVec.getElem_and, BitVec.getElem_not, BitVec.getElem_zero] at this ⊢
    revert this
    cases e[i] <;> cases bits[i] <;> decide
  · intro h
    rw [← h]
    ext i hi
    simp only [BitVec.getElem_and, BitVec.getElem_not, BitVec.getElem_zero]
    cases e[i] <;> cases bits[i] <;> decide

theorem or_missing (e bits : Word) : e ||| (bits &&& ~~~e) = e ||| bits := by
  ext i hi
  simp only [BitVec.getElem_or, BitVec.getElem_and, BitVec.getElem_not]
  cases e[i] <;> cases bits[i] <;> rfl

theorem markAccessed_set {s : State} {x : PdcEntry} {store : Bool}
    (h : x.entry &&& accessBits store = accessBits store) : markAccessed s x store = s :=
  if_pos ((missing_zero_iff ..).mpr h)

/-- The cache with the bits of an access set in an entry. -/
def pdcMarked (pdc : List PdcEntry) (x : PdcEntry) (bits : Word) : List PdcEntry :=
  pdc.map fun y => if y = x then { x with entry := x.entry ||| bits } else y

theorem markAccessed_clear {s : State} {x : PdcEntry} {store : Bool}
    (h : x.entry &&& accessBits store ≠ accessBits store) :
    StoresBytes s (markAccessed s x store) x.entryPa
        (bytesOfWord (wordAt s x.entryPa ||| (accessBits store &&& ~~~x.entry))) ∧
      markAccessed s x store = { s with
        mem := (markAccessed s x store).mem
        mmu := { s.mmu with pdc := pdcMarked s.mmu.pdc x (accessBits store) } } := by
  have hn := mt (missing_zero_iff ..).mp h
  have heq : markAccessed s x store = _ := if_neg hn
  have hmap : s.mmu.pdc.map (fun y => if y = x then { y with entry := y.entry ||| (accessBits store &&& ~~~x.entry) } else y) =
      pdcMarked s.mmu.pdc x (accessBits store) := by
    unfold pdcMarked
    refine List.map_congr_left fun y _ => ?_
    split
    case isTrue hy => rw [hy, or_missing]
    case isFalse => rfl
  rw [heq, hmap]
  exact ⟨write_storesBytes (z := .word) rfl, rfl⟩

theorem pdcMarked_absent {pdc : List PdcEntry} {x : PdcEntry} (bits : Word) (h : x ∉ pdc) : pdcMarked pdc x bits = pdc := by
  unfold pdcMarked
  refine (List.map_congr_left fun y hy => ?_).trans (List.map_id _)
  have hne : y ≠ x := fun he => h (he ▸ hy)
  exact if_neg hne

theorem bytesOfWord_wordOfBytes (a b c d : Byte) : bytesOfWord (wordOfBytes a b c d) = [a, b, c, d] := by
  have := a.isLt
  have := b.isLt
  have := c.isLt
  have := d.isLt
  have hw : (wordOfBytes a b c d).toNat = a.toNat * 2 ^ 24 + b.toNat * 2 ^ 16 + c.toNat * 2 ^ 8 + d.toNat := by
    show (a ++ b ++ c ++ d : BitVec (8 + 8 + 8 + 8)).toNat = _
    rw [append_toNat, append_toNat, append_toNat]
    omega
  have byte (n : Nat) {x : Byte} (h : (a.toNat * 2 ^ 24 + b.toNat * 2 ^ 16 + c.toNat * 2 ^ 8 + d.toNat) / 2 ^ n % 2 ^ 8 = x.toNat) :
      (wordOfBytes a b c d).extractLsb' n 8 = x := by
    apply BitVec.eq_of_toNat_eq
    rw [BitVec.extractLsb'_toNat, Nat.shiftRight_eq_div_pow, hw, h]
  rw [bytesOfWord, byte 24 (x := a) (by omega), byte 16 (x := b) (by omega), byte 8 (x := c) (by omega),
    byte 0 (x := d) (by omega)]

theorem read8_wordAt (s : State) (pa : Nat) : StoresBytes s s pa (bytesOfWord (wordAt s pa)) := by
  have hb : bytesOfWord (wordAt s pa) = [s.mem.read8 pa, s.mem.read8 (pa + 1), s.mem.read8 (pa + 2), s.mem.read8 (pa + 3)] :=
    bytesOfWord_wordOfBytes ..
  refine ⟨fun k hk => ?_, fun _ _ => rfl⟩
  rw [hb] at hk
  match k, hk with
  | 0, _ => simp [hb]
  | 1, _ => simp [hb]
  | 2, _ => simp [hb]
  | 3, _ => simp [hb]

end Sys2Proof.Machine
end

section
/-! The table walk (21_reference_mmu.md R163 to R176, R186 to R192, R201, R203). -/

namespace Sys2Proof.Machine

/-! ### The entry at a level -/

theorem find_congr {α : Type} {p q : α → Bool} (h : ∀ y, p y = true ↔ q y = true) (xs : List α) :
    xs.find? p = xs.find? q := by
  rw [funext fun y => Bool.eq_iff_iff.mpr (h y)]

/-- The cached PTD of a level is of the current context: that a context is ignored is for PTEs. -/
theorem pdcPtd_find {s : State} {va : Word} {level : Nat} {p : PdcEntry → Bool}
    (h : ∀ y, p y = true ↔ y.level = level ∧ y.entry.toNat % 4 = 1 ∧ y.context = s.mmu.context ∧
      y.va.toNat / 2 ^ regionShift y.level = va.toNat / 2 ^ regionShift y.level) :
    s.mmu.pdc.find? p = pdcPtd s va level := by
  refine find_congr (fun y => ?_) _
  rw [h, Bool.and_eq_true, Bool.and_eq_true, beq_iff_eq, beq_iff_eq, entryType_ptd, pdcMatches_iff]
  constructor
  · rintro ⟨hl, he, hc, hs⟩
    exact ⟨⟨he, hl⟩, .inl hc, hs⟩
  · rintro ⟨⟨he, hl⟩, hc | ⟨-, hp, -⟩, hs⟩
    · exact ⟨hl, he, hc, hs⟩
    · omega

/-- Does the environment strike the read of the entry at a level. -/
def TableStruck (s : State) (kind : AccessKind) (i : Nat) : Prop :=
  kind = .fetch ∧ s.now.machineCheck = some (.instructionTableError (BitVec.ofNat 2 i)) ∨
    kind = .first ∧ s.now.machineCheck = some (.dataTableError (BitVec.ofNat 2 i))

theorem tableErrorPresented_iff (s : State) (kind : AccessKind) (i : Nat) :
    tableErrorPresented s kind i = true ↔ TableStruck s kind i := by
  unfold tableErrorPresented TableStruck
  cases kind with
  | fetch => simp
  | first => simp
  | second => simp

section
variable {s : State} {kind : AccessKind} {va : Word} {level pa : Nat}

theorem readEntry_cached {y : PdcEntry} (h : pdcPtd s va level = some y) : readEntry s kind va level pa = some y.entry := by
  simp only [readEntry, h]

theorem readEntry_unreadable (hc : pdcPtd s va level = none)
    (h : TableStruck s kind level ∨ tableReadable s.cfg pa = false) : readEntry s kind va level pa = none := by
  rw [← tableErrorPresented_iff] at h
  have hu : (tableErrorPresented s kind level || !tableReadable s.cfg pa) = true := by
    rw [Bool.or_eq_true, Bool.not_eq_true']
    exact h
  simp only [readEntry, hc, hu, if_true]

theorem readEntry_reads (hc : pdcPtd s va level = none)
    (h : ¬(TableStruck s kind level ∨ tableReadable s.cfg pa = false)) :
    readEntry s kind va level pa = some (wordAt s pa) := by
  rw [← tableErrorPresented_iff] at h
  have hu : ¬(tableErrorPresented s kind level || !tableReadable s.cfg pa) = true := by
    rw [Bool.or_eq_true, Bool.not_eq_true']
    exact h
  simp only [readEntry, hc, hu]
  rfl

/-! ### The walk from an entry on -/

variable {below : Nat} {seen : List PdcEntry} {e : Word}

theorem walkFrom_unreadable (h : readEntry s kind va (3 - below) pa = none) :
    walkFrom s kind va below pa seen = .fault 4#3 (3 - below) true := by
  cases below with
  | zero => simp only [walkFrom, h]
  | succ n => simp only [walkFrom, h]

theorem walkFrom_invalid (h : readEntry s kind va (3 - below) pa = some e) (he : e.toNat % 4 = 0) :
    walkFrom s kind va below pa seen = .fault 1#3 (3 - below) false := by
  have he := (entryType_invalid e).mpr he
  cases below with
  | zero => simp only [walkFrom, h, he, if_true]
  | succ n => simp only [walkFrom, h, he, if_true]

theorem walkFrom_pte (h : readEntry s kind va (3 - below) pa = some e) (he : e.toNat % 4 = 2) :
    walkFrom s kind va below pa seen = .pte e (3 - below) pa seen := by
  have he := (entryType_pte e).mpr he
  cases below with
  | zero =>
    simp only [walkFrom, h]
    simp [he]
  | succ n =>
    simp only [walkFrom, h]
    simp [he]

theorem walkFrom_reserved (h : readEntry s kind va (3 - below) pa = some e)
    (he : e.toNat % 4 = 3 ∨ e.toNat % 4 = 1 ∧ below = 0) :
    walkFrom s kind va below pa seen = .fault 4#3 (3 - below) false := by
  rcases he with he | ⟨he, rfl⟩
  · have he := (entryType_reserved e).mpr he
    cases below with
    | zero =>
      simp only [walkFrom, h]
      simp [he]
    | succ n =>
      simp only [walkFrom, h]
      simp [he]
  · have he := (entryType_ptd e).mpr he
    simp [walkFrom, h, he]

/-- At a PTD the walk goes on in the table below, and remembers the PTD if it was read from memory. -/
theorem walkFrom_ptd (hl : 3 - (below + 1) = level) (h : readEntry s kind va level pa = some e) (he : e.toNat % 4 = 1) :
    walkFrom s kind va (below + 1) pa seen =
      walkFrom s kind va below (nextPa e va level)
        (if s.cfg.pdcCachesPtds && (pdcPtd s va level).isNone then ⟨s.mmu.context, va, level, e, pa⟩ :: seen
        else seen) := by
  have he := (entryType_ptd e).mpr he
  subst hl
  simp only [walkFrom, h]
  simp [he]

end

/-! ### The walk down a row of entries -/

/-- Where the entry of a level stands, the entries above it given (R163, R175). -/
def tablePlace (s : State) (va : Word) (e : Nat → Word) (i : Nat) : Nat :=
  let table (i : Nat) (index : Nat) : Nat := ((e i).toNat / 4 * 64 + index * 4) % 2 ^ 36
  if i = 0 then (s.mmu.ctp.toNat * 64 + s.mmu.context.toNat * 4) % 2 ^ 36
  else if i = 1 then table 0 (va.toNat / 2 ^ 24)
  else if i = 2 then table 1 (va.toNat / 2 ^ 18 % 64)
  else table 2 (va.toNat / 2 ^ 12 % 64)

theorem nextPa_place (s : State) (va : Word) (e : Nat → Word) {k : Nat} (hk : k < 3) :
    nextPa (e k) va k = tablePlace s va e (k + 1) := by
  rw [nextPa_eq]
  match k, hk with
  | 0, _ => rfl
  | 1, _ => rfl
  | 2, _ => rfl

/-- Does the entry of a level stand in the cache, or else in a table that can be read. -/
def EntryHolds (s : State) (kind : AccessKind) (va : Word) (e : Nat → Word) (i : Nat) : Prop :=
  (∃ y, pdcPtd s va i = some y ∧ y.entry = e i) ∨
    pdcPtd s va i = none ∧ ¬(TableStruck s kind i ∨ tableReadable s.cfg (tablePlace s va e i) = false) ∧
      wordAt s (tablePlace s va e i) = e i

theorem EntryHolds.read {s : State} {kind : AccessKind} {va : Word} {e : Nat → Word} {i : Nat}
    (h : EntryHolds s kind va e i) : readEntry s kind va i (tablePlace s va e i) = some (e i) := by
  rcases h with ⟨y, hy, he⟩ | ⟨hc, hr, he⟩
  · rw [readEntry_cached hy, he]
  · rw [readEntry_reads hc hr, he]

/-- A PTE is not cached as a PTD: it stands in memory. -/
theorem EntryHolds.wordAt_pte {s : State} {kind : AccessKind} {va : Word} {e : Nat → Word} {i : Nat}
    (h : EntryHolds s kind va e i) (he : (e i).toNat % 4 = 2) : wordAt s (tablePlace s va e i) = e i := by
  rcases h with ⟨y, hy, hye⟩ | ⟨-, -, h⟩
  · have hp := List.find?_some hy
    rw [Bool.and_eq_true, Bool.and_eq_true, beq_iff_eq, entryType_ptd, hye] at hp
    omega
  · exact h

/-- The PTDs that a walk down to a level has read, if the cache takes PTDs. -/
def walkedPtds (s : State) (va : Word) (e : Nat → Word) (k : Nat) : List PdcEntry :=
  if s.cfg.pdcCachesPtds then
    ((List.range k).filter fun i => (pdcPtd s va i).isNone).reverse.map fun i =>
      ⟨s.mmu.context, va, i, e i, tablePlace s va e i⟩
  else []

theorem walkedPtds_succ (s : State) (va : Word) (e : Nat → Word) (k : Nat) :
    walkedPtds s va e (k + 1) =
      if s.cfg.pdcCachesPtds && (pdcPtd s va k).isNone then
        ⟨s.mmu.context, va, k, e k, tablePlace s va e k⟩ :: walkedPtds s va e k
      else walkedPtds s va e k := by
  unfold walkedPtds
  cases hc : s.cfg.pdcCachesPtds with
  | false => simp
  | true =>
    rw [List.range_succ, List.filter_append]
    cases hn : (pdcPtd s va k).isNone with
    | false => simp [hn]
    | true => simp [hn]

theorem mem_walkedPtds_level {s : State} {va : Word} {e : Nat → Word} {k : Nat} {x : PdcEntry}
    (h : x ∈ walkedPtds s va e k) : x.level < k := by
  unfold walkedPtds at h
  split at h
  · obtain ⟨i, hi, rfl⟩ := List.mem_map.mp h
    exact List.mem_range.mp (List.mem_filter.mp (List.mem_reverse.mp hi)).1
  · exact absurd h List.not_mem_nil

/-- Down a row of PTDs the walk comes to the entry below them. -/
theorem walk_descends {s : State} {kind : AccessKind} {va : Word} {e : Nat → Word} (k : Nat) (hk : k ≤ 3)
    (h : ∀ i, i < k → EntryHolds s kind va e i ∧ (e i).toNat % 4 = 1) :
    walk s kind va = walkFrom s kind va (3 - k) (tablePlace s va e k) (walkedPtds s va e k) := by
  induction k with
  | zero =>
    unfold walkedPtds
    simp only [List.range_zero, List.filter_nil, List.reverse_nil, List.map_nil, ite_self]
    rfl
  | succ k ih =>
    obtain ⟨hread, hptd⟩ := h k (Nat.lt_succ_self k)
    have hlevel : 3 - (3 - (k + 1) + 1) = k := by omega
    rw [ih (by omega) fun i hi => h i (Nat.lt_succ_of_lt hi), show 3 - k = 3 - (k + 1) + 1 by omega,
      walkFrom_ptd hlevel hread.read hptd, nextPa_place s va e (by omega), walkedPtds_succ]

/-! ### The translation by a walk -/

section
variable {s : State} {kind : AccessKind} {asi : BitVec 8} {va : Word} {store : Bool}

theorem translateCached_fault {ft : BitVec 3} {level : Nat} {bus : Bool} (hp : pdcPte s va = none)
    (hw : walk s kind va = .fault ft level bus) :
    ∃ t, translateCached s kind asi va store = .fault ft none t ∧
      FaultRecorded s.mmu t.mmu (if bus then .table else faultClass asi) (BitVec.ofNat 2 level) (accessType asi store) ft
        bus va ∧ t = { s with mmu := t.mmu, freeDraws := t.freeDraws } := by
  refine ⟨_, ?_, recordFault_recorded s (if bus then .table else faultClass asi) (BitVec.ofNat 2 level)
    (accessType asi store) ft bus va⟩
  unfold translateCached
  simp only [hp, hw]

theorem translateCached_walked {e : Word} {level pa : Nat} {ptds : List PdcEntry} (hp : pdcPte s va = none)
    (hw : walk s kind va = .pte e level pa ptds) :
    translateCached s kind asi va store =
      checkedAccess (pdcInsert s (⟨s.mmu.context, va, level, e, pa⟩ :: ptds)) ⟨s.mmu.context, va, level, e, pa⟩ asi va store := by
  unfold translateCached
  simp only [hp, hw]

variable {e : Word} {level pa : Nat} {ptds : List PdcEntry}

/-- The access by an entry that a walk has found, and has put into the cache in front of what was there. -/
theorem translateCached_allowed (hp : ∀ y ∈ s.mmu.pdc, ¬Translates s va y) (hl : ∀ y ∈ ptds, y.level ≠ level)
    (hw : walk s kind va = .pte e level pa ptds) (he : e.toNat % 4 = 2) (hm : wordAt s pa = e)
    (hft : permissionFault (accessType asi store) (entryAcc e) = 0#3) :
    ∃ t, translateCached s kind asi va store = .ok (pagePa e level va) level t ∧
      StoresBytes s t pa (bytesOfWord (e ||| accessBits store)) ∧
        t = { s with
          mem := t.mem
          mmu := { s.mmu with
            pdc := ⟨s.mmu.context, va, level, e ||| accessBits store, pa⟩ :: (ptds ++ s.mmu.pdc) } } := by
  have habsent : (⟨s.mmu.context, va, level, e, pa⟩ : PdcEntry) ∉ ptds ++ s.mmu.pdc := by
    intro h
    rcases List.mem_append.mp h with h | h
    · exact hl _ h rfl
    · exact hp _ h ⟨he, rfl, .inl rfl⟩
  refine ⟨_, (translateCached_walked (pdcPte_none hp) hw).trans (checkedAccess_allowed hft), ?_⟩
  by_cases hb : e &&& accessBits store = accessBits store
  · rw [markAccessed_set hb]
    have hset : e ||| accessBits store = e := by
      rw [← or_missing, (missing_zero_iff ..).mpr hb, BitVec.or_zero]
    have hbytes := read8_wordAt s pa
    rw [hset]
    rw [hm] at hbytes
    exact ⟨hbytes, rfl⟩
  · obtain ⟨hbytes, hrest⟩ := markAccessed_clear
      (s := pdcInsert s (⟨s.mmu.context, va, level, e, pa⟩ :: ptds)) (x := ⟨s.mmu.context, va, level, e, pa⟩) hb
    have hword : wordAt (pdcInsert s (⟨s.mmu.context, va, level, e, pa⟩ :: ptds)) pa = e := hm
    have hpdc : pdcMarked (⟨s.mmu.context, va, level, e, pa⟩ :: (ptds ++ s.mmu.pdc)) ⟨s.mmu.context, va, level, e, pa⟩
        (accessBits store) = ⟨s.mmu.context, va, level, e ||| accessBits store, pa⟩ :: (ptds ++ s.mmu.pdc) := by
      have htail := pdcMarked_absent (accessBits store) habsent
      unfold pdcMarked at htail ⊢
      rw [List.map_cons, htail, if_pos rfl]
    simp only [hword, or_missing] at hbytes
    refine ⟨hbytes, hrest.trans ?_⟩
    rw [← hpdc]
    rfl

theorem translateCached_refused (hp : ∀ y ∈ s.mmu.pdc, ¬Translates s va y)
    (hw : walk s kind va = .pte e level pa ptds)
    (hft : permissionFault (accessType asi store) (entryAcc e) ≠ 0#3) :
    ∃ t, translateCached s kind asi va store =
        .fault (permissionFault (accessType asi store) (entryAcc e)) (some (pagePa e level va)) t ∧
      FaultRecorded { s.mmu with pdc := ⟨s.mmu.context, va, level, e, pa⟩ :: (ptds ++ s.mmu.pdc) } t.mmu (faultClass asi)
          (BitVec.ofNat 2 level) (accessType asi store) (permissionFault (accessType asi store) (entryAcc e)) false va ∧
        t = { s with mmu := t.mmu, freeDraws := t.freeDraws } := by
  obtain ⟨hrec, hrest⟩ := recordFault_recorded (pdcInsert s (⟨s.mmu.context, va, level, e, pa⟩ :: ptds)) (faultClass asi)
    (BitVec.ofNat 2 level) (accessType asi store) (permissionFault (accessType asi store) (entryAcc e)) false va
  exact ⟨_, (translateCached_walked (pdcPte_none hp) hw).trans (checkedAccess_refused hft), hrec, hrest⟩

end

theorem regionSize_eq (k : Nat) :
    (if k = 0 then 2 ^ 32 else if k = 1 then 2 ^ 24 else if k = 2 then 2 ^ 18 else 2 ^ 12 : Nat) = 2 ^ regionShift k := by
  match k with
  | 0 => rfl
  | 1 => rfl
  | 2 => rfl
  | _ + 3 => rfl

/-- Settles O56: the walk comes down the row of PTDs, by induction on the level, and ends by what its entry is. -/
theorem translationWalksTables : Obligations.TranslationWalksTables := by
  refine ⟨fun s kind asi va store => ⟨pdcEvict_sublist s, rfl, rfl⟩, ?_⟩
  intro s kind asi va store e k v root table place size struck unreadable width same translates cached holds ptds known access
    cls o fails bits et ft hk hp hrow
  have hcached (i : Nat) : cached i = pdcPtd s va i :=
    pdcPtd_find fun y => by
      rw [decide_eq_true_iff, regionShift_eq]
  have hholds {i : Nat} (h : holds i) : EntryHolds s kind va e i := by
    rw [EntryHolds, ← hcached]
    exact h
  have hnone : ∀ y ∈ s.mmu.pdc, ¬Translates s va y := fun y hy h => hp y hy (by
    rw [Translates, regionShift_eq] at h
    exact h)
  have hptds : ptds = walkedPtds s va e k := by
    unfold walkedPtds
    rw [← funext hcached]
    rfl
  have hwalk : walk s kind va = walkFrom s kind va (3 - k) (place k) ptds := by
    rw [hptds]
    exact walk_descends k hk fun i hi => ⟨hholds (hrow i hi).1, (hrow i hi).2⟩
  have hlevel : 3 - (3 - k) = k := by omega
  have hlevels : ∀ y ∈ ptds, y.level ≠ k := fun y hy => Nat.ne_of_lt (mem_walkedPtds_level (hptds ▸ hy))
  refine ⟨fun hc hu => ?_, fun hh => ⟨fun he => ?_, fun he => ?_, fun he ha => ?_⟩⟩
  · have hread : readEntry s kind va (3 - (3 - k)) (place k) = none := by
      rw [hlevel]
      exact readEntry_unreadable ((hcached k).symm.trans hc) hu
    have hw := hwalk.trans (walkFrom_unreadable hread)
    rw [hlevel] at hw
    exact translateCached_fault (pdcPte_none hnone) hw
  all_goals
    have hread : readEntry s kind va (3 - (3 - k)) (place k) = some (e k) := by
      rw [hlevel]
      exact (hholds hh).read
  · have hw := hwalk.trans (walkFrom_invalid hread he)
    rw [hlevel] at hw
    exact translateCached_fault (pdcPte_none hnone) hw
  · have hw := hwalk.trans (walkFrom_reserved hread (he.imp_right fun h => ⟨h.1, by omega⟩))
    rw [hlevel] at hw
    exact translateCached_fault (pdcPte_none hnone) hw
  · have hw := hwalk.trans (walkFrom_pte hread he)
    rw [hlevel] at hw
    rw [show size = 2 ^ regionShift k from regionSize_eq k] at ha ⊢
    have hpa := pagePa_toNat va ha
    refine ⟨fun hft => ?_, fun hft => ?_⟩
    · obtain ⟨t, ho, hbytes, ht⟩ := translateCached_allowed hnone hlevels hw he ((hholds hh).wordAt_pte he) hft
      exact ⟨_, t, ho, hpa, hbytes, ht⟩
    · obtain ⟨t, ho, hrec, ht⟩ := translateCached_refused hnone hw hft
      exact ⟨_, t, ho, hpa, hrec, ht⟩

end Sys2Proof.Machine
end

section
/-! The faults of the MMU as the instruction sees them: raised, or with NF = 1 kept from it (21_reference_mmu.md
R182, R186 to R192). -/

namespace Sys2Proof.Machine

/-! ### A translated route -/

section
variable {s t : State} {k : AccessKind} {asi : BitVec 8} {va : Word} {store : Bool}

theorem missPresented_translating (k : AccessKind) (h : translating s = true) : missPresented s k = none := by
  unfold translating at h
  exact if_pos (Bool.and_eq_true _ _ ▸ h).1

theorem route_translated (ha : architecturalAsis.contains asi = true) (ht : translating s = true) :
    route s k asi va store = translatedRoute s k asi va store := by
  unfold route
  simp only [missPresented_translating k ht, asiKind_architectural ha, decodedAsi_architectural ha, ht, if_true]

theorem translatedRoute_fault {ft : BitVec 3} {pa : Option (BitVec 36)} (hi : internalPresented s k = false)
    (hk : k ≠ .second) (ho : translate s k asi va store = .fault ft pa t) :
    translatedRoute s k asi va store = mmuFault t asi (accessException k) pa := by
  unfold translatedRoute
  simp only [hi, Bool.false_eq_true, if_false, hk, ho]

theorem translatedRoute_ok {pa : BitVec 36} {level : Nat} (hi : internalPresented s k = false)
    (hk : k ≠ .second) (ho : translate s k asi va store = .ok pa level t) :
    translatedRoute s k asi va store = .ok (.memory asi pa.toNat true) t := by
  unfold translatedRoute
  simp only [hi, Bool.false_eq_true, if_false, hk, ho]

theorem translatedRoute_internal (hi : internalPresented s k = true) :
    translatedRoute s k asi va store = mmuFault (errorRecorded s asi 6#3 va store) asi (accessError k) none := if_pos hi

theorem mmuFault_raised {x : Trap} {pa : Option (BitVec 36)} (h : t.mmu.nf = false ∨ asi = 0x09#8) :
    mmuFault t asi x pa = .fault x t := by
  refine if_neg ?_
  unfold faultSuppressed
  rcases h with h | h <;> simp [h]

theorem mmuFault_kept {x : Trap} {pa : Option (BitVec 36)} (h : t.mmu.nf = true) (ha : asi ≠ 0x09#8) :
    mmuFault t asi x pa = .ok (.suppressed asi (pa.map BitVec.toNat)) t := by
  refine if_pos ?_
  unfold faultSuppressed
  simp [h, ha]

theorem translate_fault_nf {ft : BitVec 3} {pa : Option (BitVec 36)} (ho : translate s k asi va store = .fault ft pa t) :
    t.mmu.nf = s.mmu.nf := by
  have h : (translate s k asi va store).state.mmu.nf = s.mmu.nf := translateCached_nf ..
  rwa [ho] at h

theorem translate_ok_nf {pa : BitVec 36} {level : Nat} (ho : translate s k asi va store = .ok pa level t) :
    t.mmu.nf = s.mmu.nf := by
  have h : (translate s k asi va store).state.mmu.nf = s.mmu.nf := translateCached_nf ..
  rwa [ho] at h

end

/-! ### Fetches -/

theorem fetchAsi_supervisor (s : State) : fetchAsi s = 0x09#8 ↔ s.psr.s = true := by
  unfold fetchAsi
  cases s.psr.s <;> simp

theorem fetch_fault {s t : State} {ft : BitVec 3} {pa : Option (BitVec 36)} (ht : translating s = true)
    (hm : s.now.machineCheck = none) (ho : translate s .fetch (fetchAsi s) s.pc false = .fault ft pa t) :
    (s.psr.s = true ∨ s.mmu.nf = false → fetch s = .fault .instructionAccessException t) ∧
      (s.psr.s = false → s.mmu.nf = true → ∃ w, fetch s = .ok w { t with freeDraws := t.freeDraws + 1 }) := by
  have hi : internalPresented s .fetch = false := by simp [internalPresented, hm]
  have hr : route s .fetch (fetchAsi s) s.pc false = mmuFault t (fetchAsi s) .instructionAccessException pa :=
    (route_translated (fetchAsi_architectural s) ht).trans (translatedRoute_fault hi (by decide) ho)
  have hnf := translate_fault_nf ho
  constructor
  · intro h
    rw [fetch, hr, mmuFault_raised (h.symm.imp (fun h => hnf.trans h) (fetchAsi_supervisor s).mpr)]
    rfl
  · intro hs hn
    have hne : fetchAsi s ≠ 0x09#8 := fun h => absurd ((fetchAsi_supervisor s).mp h) (by simp [hs])
    rw [fetch, hr, mmuFault_kept (hnf.trans hn) hne]
    exact ⟨_, rfl⟩

theorem step_fetchFault {s t : State} {x : Trap} (hmode : s.mode = .execute) (hnow : (takeInputs s).now = Inputs.quiet)
    (ha : s.annul = false) (hf : fetch (turn (takeInputs s)) = .fault x t) : Traps (step s) x t := by
  refine step_of_ended ((prepare_quiet hmode hnow).trans ?_)
  rw [fetchCycle, turn_annul, show (takeInputs s).annul = false from ha, hf]
  rfl

/-! ### Data accesses -/

theorem dataAsi_not_supervisorText (s : State) : dataAsi s ≠ 0x09#8 := by
  unfold dataAsi
  split <;> decide

theorem faultClass_dataAsi (s : State) : faultClass (dataAsi s) = .data := by
  unfold dataAsi
  split <;> rfl

section
variable {s t : State} {asi : BitVec 8} {a : Word} {z : Size} {ft : BitVec 3} {pa : Option (BitVec 36)}
  (ht : translating s = true) (hm : s.now.machineCheck = none) (haz : a.toNat % z.alignment = 0)
  (harch : architecturalAsis.contains asi = true)
include ht hm haz harch

theorem loadFails_translation (hn : s.mmu.nf = false ∨ asi = 0x09#8)
    (ho : translate s .first asi a false = .fault ft pa t) : LoadFails s asi a z t := by
  have hd := decodedAsi_architectural (c := s.cfg) harch
  refine .inr ⟨hm, haz, asiKind_architectural harch, ht, .inl ⟨?_, ft, pa, ?_⟩⟩
  · rw [hd]
    exact hn
  · rw [hd]
    exact ho

theorem storeFails_translation (hn : s.mmu.nf = false ∨ asi = 0x09#8)
    (ho : translate { s with storeBarrierPending := false } .first asi a true = .fault ft pa t) : StoreFails s asi a z t := by
  have hd := decodedAsi_architectural (c := s.cfg) harch
  refine .inr ⟨hm, haz, asiKind_architectural harch, ht, .inl ⟨?_, ft, pa, ?_⟩⟩
  · rw [hd]
    exact hn
  · rw [hd]
    exact ho

theorem loadAt_suppressed (hn : s.mmu.nf = true) (hne : asi ≠ 0x09#8)
    (ho : translate s .first asi a false = .fault ft pa t) : LoadAt s (.suppressed (pa.map BitVec.toNat)) asi a z t := by
  have hd := decodedAsi_architectural (c := s.cfg) harch
  refine .inr ⟨hm, haz, asiKind_architectural harch, ht, .inr ⟨hn, ?_, ft, pa, ?_, rfl⟩⟩
  · rw [hd]
    exact hne
  · rw [hd]
    exact ho

theorem storeAt_suppressed (hn : s.mmu.nf = true) (hne : asi ≠ 0x09#8)
    (ho : translate { s with storeBarrierPending := false } .first asi a true = .fault ft pa t) :
    StoreAt s (.suppressed (pa.map BitVec.toNat)) asi a z t := by
  have hd := decodedAsi_architectural (c := s.cfg) harch
  refine .inr ⟨hm, haz, asiKind_architectural harch, ht, .inr ⟨hn, ?_, ft, pa, ?_, rfl⟩⟩
  · rw [hd]
    exact hne
  · rw [hd]
    exact ho

end

/-- A load under a suppressed fault delivers a free value of its size. -/
theorem load_suppressed {s t : State} {asi : BitVec 8} {a : Word} {z : Size} {i : Instr} {rd : RegNum} {p : Option Nat}
    (h : LoadAt s (.suppressed p) asi a z t) (hi : exec i s = (loadInt s asi a z id rd).out) :
    Completes (exec i s) fun x =>
      ∃ v : Word, v.toNat < 2 ^ (8 * z.bytes) ∧ RegsWritten t x t.psr.cwp [(rd, v)] ∧
        x = { t with
          pc := s.npc, npc := s.npc + 4#32, globals := x.globals, windowed := x.windowed
          freeDraws := t.freeDraws + 1 } := by
  obtain ⟨v, u, ⟨hv, rfl⟩, x, hx, hregs, -, hrest⟩ := load_writesReg h hi
  have hframe := h.frame.rest
  have hnpc : t.npc = s.npc := by rw [hframe]
  have hpsr : t.psr = s.psr := by rw [hframe]
  refine ⟨x, hx, v, ?_, hregs.congr_left rfl rfl rfl, hrest.trans ?_⟩
  · rw [hv, cutTo, BitVec.toNat_ofNat]
    exact Nat.lt_of_le_of_lt (Nat.mod_le _ _) (Nat.mod_lt _ (Nat.two_pow_pos _))
  · rw [← hnpc, ← hpsr]

/-- A translation that fails records its fault and changes nothing else. -/
theorem translateCached_fault_rest {s t : State} {k : AccessKind} {asi : BitVec 8} {va : Word} {store : Bool} {ft : BitVec 3}
    {pa : Option (BitVec 36)} (h : translateCached s k asi va store = .fault ft pa t) :
    t.mem = s.mem ∧ t.staleWords = s.staleWords := by
  have checked {u : State} {x : PdcEntry} (hm : u.mem = s.mem) (hs : u.staleWords = s.staleWords)
      (h : checkedAccess u x asi va store = .fault ft pa t) : t.mem = s.mem ∧ t.staleWords = s.staleWords := by
    by_cases hp : permissionFault (accessType asi store) (entryAcc x.entry) = 0#3
    · rw [checkedAccess_allowed hp] at h
      cases h
    · rw [checkedAccess_refused hp] at h
      cases h
      exact ⟨(recordFault_mem ..).trans hm, (recordFault_staleWords ..).trans hs⟩
  unfold translateCached at h
  split at h
  · exact checked rfl rfl h
  · split at h
    · exact checked (u := pdcInsert s (_ :: _)) rfl rfl h
    · cases h
      exact ⟨recordFault_mem .., recordFault_staleWords ..⟩

/-- A word stored under a suppressed fault stands at the physical address, if there is one, or nowhere. -/
theorem store_suppressed {s t : State} {asi : BitVec 8} {a v : Word} {i : Instr} {ft : BitVec 3} {pa : Option (BitVec 36)}
    (h : StoreAt s (.suppressed (pa.map BitVec.toNat)) asi a .word t)
    (ho : translate { s with storeBarrierPending := false } .first asi a true = .fault ft pa t)
    (hi : exec i s = (storeInt s asi a .word v).out) :
    Completes (exec i s) fun x =>
      x = { t with
        pc := s.npc, npc := s.npc + 4#32, mem := x.mem, staleWords := x.staleWords
        freeDraws := t.freeDraws + 1 } ∧
        (s.cfg.ibufStale = false → x.staleWords = s.staleWords) ∧ (pa = none → MemoryKept s x) ∧
          ∀ p, pa = some p → ∀ a, a < p.toNat ∨ p.toNat + 4 ≤ a → x.mem.read8 a = s.mem.read8 a := by
  have hframe := h.frame.rest
  have hnpc : t.npc = s.npc := by rw [hframe]
  have hcfg : t.cfg = s.cfg := by rw [hframe]
  obtain ⟨hmem, hstale⟩ : t.mem = s.mem ∧ t.staleWords = s.staleWords := by
    obtain ⟨hm, hs⟩ := translateCached_fault_rest ho
    exact ⟨hm, hs⟩
  have hx : storeInt s asi a .word v = .done (advance
      { storeIf (suppressedPerforms t (decodedAsi t.cfg asi) a (pa.map BitVec.toNat)) t a ((pa.map BitVec.toNat).getD 0) v .word
        with freeDraws := t.freeDraws + 1 }) := by
    rw [storeInt, aligned_of_mod _ h.aligned, memWrite_storeAt h, placeWrite, suppressedWrite_eq]
    rfl
  have hwhere := suppressedPerforms_where (s := t) (asi := decodedAsi t.cfg asi) (va := a) (pa := pa.map BitVec.toNat)
  generalize suppressedPerforms t (decodedAsi t.cfg asi) a (pa.map BitVec.toNat) = performed at hx hwhere
  refine ⟨_, hi.trans (congrArg Res.out hx), ?_, fun hb => ?_, fun hn b => ?_, fun q hq b hb => ?_⟩
  · rw [← hnpc]
    cases performed with
    | false => rfl
    | true =>
      unfold storeIf
      rw [if_pos rfl, storeAt_rest]
      rfl
  · rw [← hstale]
    cases performed with
    | false => rfl
    | true =>
      have hkept : keepStale t a ((pa.map BitVec.toNat).getD 0) = t := if_neg (by rw [hcfg, hb]; decide)
      show (keepStale t a ((pa.map BitVec.toNat).getD 0)).staleWords = t.staleWords
      rw [hkept]
  · rw [← hmem]
    exact read8_storeIf_outside performed t a _ v .word fun hp => absurd (hwhere hp).1 (by simp [hn])
  · rw [← hmem]
    refine read8_storeIf_outside performed t a _ v .word fun _ => ?_
    rw [hq]
    exact hb

theorem errorRecorded_recorded (s : State) (asi : BitVec 8) (ft : BitVec 3) (va : Word) (store : Bool) :
    FaultRecorded s.mmu (errorRecorded s asi ft va store).mmu (faultClass asi) (Config.faultLevel s.freeDraws)
        (accessType asi store) ft (ft == 5#3) va ∧
      errorRecorded s asi ft va store = { s with
        mmu := (errorRecorded s asi ft va store).mmu, freeDraws := (errorRecorded s asi ft va store).freeDraws } :=
  recordFault_recorded ..

theorem loadInt_routeFault {s t : State} {asi : BitVec 8} {a : Word} {z : Size} {e : Word → Word} {rd : RegNum} {x : Trap}
    (ha : a.toNat % z.alignment = 0) (hr : route s .first asi a false = .fault x t) :
    loadInt s asi a z e rd = .trap x t := by
  rw [loadInt, aligned_of_mod _ ha, memRead, hr]
  rfl

/-- A bus error behind the MMU is recorded, and raised if NF does not keep it from the processor. -/
theorem loadInt_busError {s t : State} {asi : BitVec 8} {a : Word} {z : Size} {e : Word → Word} {rd : RegNum} {pa : Nat}
    (ha : a.toNat % z.alignment = 0) (hr : route s .first asi a false = .ok (.memory asi pa true) t)
    (hm : errorPresented t .first = true) (hn : t.mmu.nf = false) :
    loadInt s asi a z e rd = .trap .dataAccessError (busError t asi a false) := by
  have hsup : faultSuppressed (busError t asi a false) asi = false := by
    unfold faultSuppressed busError errorRecorded
    rw [recordFault_nf, hn]
    rfl
  rw [loadInt, aligned_of_mod _ ha, memRead, hr]
  simp only [MemRes.andThen, readAt, physicalRead, hm, readError, hsup, if_true, Bool.false_eq_true, if_false]
  rfl

/-- Settles O57. -/
theorem mmuFaults : Obligations.MmuFaults := by
  refine ⟨by decide, ⟨rfl, rfl, rfl, rfl, rfl, rfl, rfl, rfl⟩, fun s ht hm => ?fetch,
    fun s t x hmode hnow ha hf => step_fetchFault hmode hnow ha hf, ?alternate, ?data⟩
  case fetch =>
    intro space ft pa t ho
    exact fetch_fault ht hm ho
  case alternate =>
    intro s rd rs1 rs2 ht hm hs address u ha ft pa t
    refine ⟨fun ho => ?_, fun ho => ?_⟩
    · exact (exec_supervisor hs rfl).trans
        (congrArg Res.out ((loadFails_translation (z := .word) ht hm ha rfl (.inr rfl) ho).loadInt id rd))
    · exact (exec_supervisor hs rfl).trans
        (congrArg Res.out ((storeFails_translation (z := .word) ht hm ha rfl (.inr rfl) ho).storeInt _))
  case data =>
    intro s rd rs1 o data address u ht ha
    have ha2 : address.toNat % 2 = 0 := by omega
    refine ⟨fun hm => ⟨fun ft pa t ho => ⟨fun hn => ?_, fun hn => ?_⟩, fun ft pa t ho => ⟨fun hn => ?_, fun hn => ?_⟩⟩,
      fun hm hn => ?_, fun hm hn pa k x ho => ?_⟩
    · have load {z : Size} {e : Word → Word} (hz : address.toNat % z.alignment = 0) :
          (loadInt s data address z e rd).out = (Res.trap .dataAccessException t).out :=
        congrArg Res.out ((loadFails_translation ht hm hz (dataAsi_architectural s) (.inl hn) ho).loadInt e rd)
      simp only [List.forall_mem_cons, List.not_mem_nil, false_imp_iff, implies_true, and_true]
      exact ⟨load ha, load (Nat.mod_one _), load ha2, load (Nat.mod_one _), load ha2⟩
    · have load {z : Size} (hz : address.toNat % z.alignment = 0) : LoadAt s _ data address z t :=
        loadAt_suppressed ht hm hz (dataAsi_architectural s) hn (dataAsi_not_supervisorText s) ho
      exact ⟨load_suppressed (load (z := .word) ha) rfl, load_suppressed (load (z := .half) ha2) rfl,
        load_suppressed (load (z := .byte) (Nat.mod_one _)) rfl⟩
    · have store {z : Size} (hz : address.toNat % z.alignment = 0) :
          (storeInt s data address z (reg s rd)).out = (Res.trap .dataAccessException t).out :=
        congrArg Res.out ((storeFails_translation ht hm hz (dataAsi_architectural s) (.inl hn) ho).storeInt _)
      simp only [List.forall_mem_cons, List.not_mem_nil, false_imp_iff, implies_true, and_true]
      exact ⟨store ha, store (Nat.mod_one _), store ha2⟩
    · exact store_suppressed
        (storeAt_suppressed ht hm ha (dataAsi_architectural s) hn (dataAsi_not_supervisorText s) ho) ho rfl
    · have hi : internalPresented s .first = true := beq_iff_eq.mpr hm
      have hr : route s .first data address false = .fault .dataAccessError (errorRecorded s data 6#3 address false) := by
        refine (route_translated (dataAsi_architectural s) ht).trans ((translatedRoute_internal hi).trans ?_)
        exact mmuFault_raised (.inl ((recordFault_nf ..).trans hn))
      obtain ⟨hrec, hrest⟩ := errorRecorded_recorded s data 6#3 address false
      rw [show faultClass data = .data from faultClass_dataAsi s] at hrec
      exact ⟨_, congrArg Res.out (loadInt_routeFault (z := .word) ha hr), _, hrec, hrest⟩
    · have hi : internalPresented s .first = false := by simp [internalPresented, hm]
      have hr := (route_translated (dataAsi_architectural s) ht).trans (translatedRoute_ok hi (by decide) ho)
      have hx : errorPresented x .first = true := by
        have hf : AccessFrame s (translate s .first data address false).state := translate_frame ..
        rw [ho] at hf
        have hnow : x.now = s.now := hf.now
        rw [errorPresented, hnow, hm]
        rfl
      obtain ⟨hrec, hrest⟩ := errorRecorded_recorded x data 5#3 address false
      rw [show faultClass data = .data from faultClass_dataAsi s] at hrec
      exact ⟨_, congrArg Res.out (loadInt_busError (z := .word) ha hr hx ((translate_ok_nf ho).trans hn)), _, hrec, hrest⟩

end Sys2Proof.Machine
end

section
/-! The MMU's registers in their address space (21_reference_mmu.md R180 to R191, R218). -/

namespace Sys2Proof.Machine

/-! ### The registers' words -/

theorem registerSelect (va : Word) : (va.extractLsb' 8 4).toNat = va.toNat / 256 % 16 := by
  rw [BitVec.extractLsb'_toNat, Nat.shiftRight_eq_div_pow]

/-- A flag's place in a word. -/
def flagAt (b : Bool) (k : Nat) : Nat := if b then 2 ^ k else 0

theorem ofBool_toNat (b : Bool) : (BitVec.ofBool b).toNat = flagAt b 0 := by cases b <;> rfl

theorem flagAt_mul (b : Bool) (k : Nat) : flagAt b k = flagAt b 0 * 2 ^ k := by cases b <;> simp [flagAt]

theorem flagAt_zero_le (b : Bool) : flagAt b 0 ≤ 1 := by cases b <;> decide

theorem mmuControlWord_eq (s : State) :
    mmuControlWord s = BitVec.ofNat 32 (s.cfg.mmuImpl.toNat * 2 ^ 28 + s.cfg.mmuVer.toNat * 2 ^ 24
      + (s.mmu.sc &&& s.cfg.mmuScMask).toNat * 2 ^ 8 + flagAt s.mmu.pso 7 + flagAt s.mmu.nf 1 + flagAt s.mmu.e 0) := by
  have := s.cfg.mmuImpl.isLt
  have := s.cfg.mmuVer.isLt
  have := (s.mmu.sc &&& s.cfg.mmuScMask).isLt
  have := flagAt_zero_le s.mmu.pso
  have := flagAt_zero_le s.mmu.nf
  have := flagAt_zero_le s.mmu.e
  apply BitVec.eq_of_toNat_eq
  show (s.cfg.mmuImpl ++ s.cfg.mmuVer ++ (s.mmu.sc &&& s.cfg.mmuScMask) ++ BitVec.ofBool s.mmu.pso ++ 0#5
    ++ BitVec.ofBool s.mmu.nf ++ BitVec.ofBool s.mmu.e).toNat = _
  simp only [append_toNat, ofBool_toNat, BitVec.toNat_ofNat, flagAt_mul s.mmu.pso 7, flagAt_mul s.mmu.nf 1]
  omega

theorem mmuStatusWord_eq (f : FaultStatus) :
    mmuStatusWord f = BitVec.ofNat 32 (f.ebe.toNat * 2 ^ 10 + f.level.toNat * 2 ^ 8 + f.access.toNat * 2 ^ 5
      + f.ft.toNat * 2 ^ 2 + flagAt f.fav 1 + flagAt f.ow 0) := by
  have := f.ebe.isLt
  have := f.level.isLt
  have := f.access.isLt
  have := f.ft.isLt
  have := flagAt_zero_le f.fav
  have := flagAt_zero_le f.ow
  apply BitVec.eq_of_toNat_eq
  show (0#14 ++ f.ebe ++ f.level ++ f.access ++ f.ft ++ BitVec.ofBool f.fav ++ BitVec.ofBool f.ow).toNat = _
  simp only [append_toNat, ofBool_toNat, BitVec.toNat_ofNat, flagAt_mul f.fav 1]
  omega

theorem contextTableWord_eq (c : BitVec 30) : (c ++ 0#2 : BitVec (30 + 2)) = BitVec.ofNat 32 (c.toNat * 4) := by
  have := c.isLt
  apply BitVec.eq_of_toNat_eq
  rw [append_toNat, BitVec.toNat_ofNat, BitVec.toNat_ofNat]
  omega

theorem and_contextMask (c : Config) (v : Word) :
    v &&& contextMask c = BitVec.ofNat 32 (v.toNat % 2 ^ c.mmuContextBits.val) :=
  and_low_mask v (Nat.le_of_lt_succ c.mmuContextBits.isLt)

/-! ### Accesses that fail at once -/

section
variable {s t u : State} {asi : BitVec 8} {va : Word} {z : Size} {x : Trap}

theorem loadInt_fails (ha : va.toNat % z.alignment = 0) (h : memRead s .first asi va z = .fault x t) (e : Word → Word)
    (rd : RegNum) : loadInt s asi va z e rd = .trap x t := by
  rw [loadInt, aligned_of_mod _ ha, h]
  rfl

theorem storeInt_fails {v : Word} (ha : va.toNat % z.alignment = 0) (h : memWrite s .first asi va v z = .fault x t) :
    storeInt s asi va z v = .trap x t := by
  rw [storeInt, aligned_of_mod _ ha, h]
  rfl

theorem atomic_fails (ha : va.toNat % z.alignment = 0) (hb : s.blockByte = false) (hw : s.blockWord = false)
    (h : memRead s .first asi va z = .fault x t) (v : Word) (rd : RegNum) : atomic s asi va z v rd = .trap x t := by
  rw [atomic, aligned_of_mod _ ha, if_neg (by simp [hb, hw]), h]
  rfl

/-- The first read of a doubleword fails as the read of one datum of its size does. -/
theorem loadPair_fails (ha : va.toNat % Size.dword.alignment = 0) (h : memRead s .first asi va .dword = .fault x t)
    (rd : RegNum) : loadPair s asi va rd = .trap x t := by
  rw [loadPair, aligned_of_mod _ ha]
  unfold memRead at h
  cases hr : route s .first asi va false with
  | fault y w =>
    rw [hr] at h
    cases h
    rfl
  | ok r w =>
    rw [hr] at h
    show (readAt w .first r va .dword).bind _ = _
    rw [show readAt w .first r va .dword = .fault x t from h]
    rfl

theorem storeTwo_fails {v : Word} (h : memWrite s .first asi va v .dword = .fault x t) (w : Word) (f : State → Res) :
    storeTwo s asi va v w f = .trap x t := by
  unfold storeTwo
  unfold memWrite at h
  cases hr : writeRoute s .first asi va with
  | fault y u =>
    rw [hr] at h
    cases h
    rfl
  | ok r u =>
    rw [hr] at h
    show (writeAt u .first r va v .dword).bind _ = _
    rw [show writeAt u .first r va v .dword = .fault x t from h]
    rfl

theorem storePair_fails {rd : RegNum} (ha : va.toNat % Size.dword.alignment = 0)
    (h : memWrite s .first asi va (reg s (evenReg rd)) .dword = .fault x t) : storePair s asi va rd = .trap x t := by
  rw [storePair, aligned_of_mod _ ha, storeTwo_fails h]

end

/-! ### Accesses in the address spaces of the MMU -/

section
variable {s : State} {k : AccessKind} {asi : BitVec 8}

theorem route_mmuRegister (hm : missPresented s k = none) (hk : asiKind s.cfg asi = .mmuRegister) (va : Word) (store : Bool) :
    route s k asi va store = .ok .mmuRegister s := by
  unfold route
  simp only [hm, hk]

theorem memRead_register (hm : missPresented s k = none) (hk : asiKind s.cfg asi = .mmuRegister) {va : Word}
    {p : Word × State} (hr : mmuRegisterRead s va = some p) : memRead s k asi va .word = .ok p.1 p.2 := by
  rw [memRead, route_mmuRegister hm hk]
  simp only [MemRes.andThen, readAt, if_true, hr]

theorem memRead_noRegister (hm : missPresented s k = none) (hk : asiKind s.cfg asi = .mmuRegister) {va : Word} {z : Size}
    (h : z = .word → mmuRegisterRead s va = none) : memRead s k asi va z = .fault (accessException k) s := by
  rw [memRead, route_mmuRegister hm hk]
  by_cases hz : z = .word
  · simp only [MemRes.andThen, readAt, if_pos hz, h hz]
  · simp only [MemRes.andThen, readAt, if_neg hz]

theorem memWrite_register (hm : missPresented s k = none) (hk : asiKind s.cfg asi = .mmuRegister) {va v : Word} {t : State}
    (hw : mmuRegisterWrite (clearBarrier s) va v = some t) : memWrite s k asi va v .word = .ok () t := by
  rw [memWrite, writeRoute, route_mmuRegister (s := clearBarrier s) hm hk]
  simp only [MemRes.andThen, writeAt, if_true, hw]

theorem memWrite_noRegister (hm : missPresented s k = none) (hk : asiKind s.cfg asi = .mmuRegister) {va v : Word} {z : Size}
    (h : z = .word → mmuRegisterWrite (clearBarrier s) va v = none) :
    memWrite s k asi va v z = .fault (accessException k) (clearBarrier s) := by
  rw [memWrite, writeRoute, route_mmuRegister (s := clearBarrier s) hm hk]
  by_cases hz : z = .word
  · simp only [MemRes.andThen, writeAt, if_pos hz, h hz]
  · simp only [MemRes.andThen, writeAt, if_neg hz]

end

section
variable {s : State} {asi : BitVec 8} {va : Word}
  (hm : ∀ k, missPresented s k = none) (hk : asiKind s.cfg asi = .mmuRegister)
include hm hk

theorem register_loads {i : Instr} {rd : RegNum} {v : Word} (hz : va.toNat % 4 = 0)
    (hi : exec i s = (loadInt s asi va .word id rd).out) (hr : mmuRegisterRead s va = some (v, s)) :
    WritesReg (exec i s) s rd v s.psr.icc := by
  rw [hi, loadInt, aligned_of_mod (size := .word) _ hz, memRead_register (hm _) hk hr]
  exact writeResult_writesReg s rd v

theorem register_stores {i : Instr} {v : Word} {m : Mmu} {pso : Bool} (hz : va.toNat % 4 = 0)
    (hi : exec i s = (storeInt s asi va .word v).out)
    (hw : mmuRegisterWrite (clearBarrier s) va v =
      some { s with mmu := m, psoMode := pso, storeBarrierPending := false }) :
    exec i s = .next { s with
      pc := s.npc, npc := s.npc + 4#32, mmu := m, psoMode := pso, storeBarrierPending := false } := by
  rw [hi, storeInt, aligned_of_mod (size := .word) _ hz, memWrite_register (hm _) hk hw]
  rfl

/-- SWAPA reads the register, then writes it as the read left the MMU (log 21). -/
theorem register_swaps {i : Instr} {rd : RegNum} {v old : Word} {m m' : Mmu} {pso : Bool} (hz : va.toNat % 4 = 0)
    (hb : s.blockByte = false) (hw : s.blockWord = false) (hi : exec i s = (atomic s asi va .word v rd).out)
    (hr : mmuRegisterRead s va = some (old, { s with mmu := m }))
    (hwr : mmuRegisterWrite (clearBarrier { s with mmu := m }) va v =
      some { s with mmu := m', psoMode := pso, storeBarrierPending := false }) :
    Completes (exec i s) fun t =>
      RegsWritten s t s.psr.cwp [(rd, old)] ∧ MemoryKept s t ∧
        t = { s with
          pc := s.npc, npc := s.npc + 4#32, globals := t.globals, windowed := t.windowed
          mmu := m', psoMode := pso, storeBarrierPending := false } := by
  have hx : atomic s asi va .word v rd =
      .done (writeResult { s with mmu := m', psoMode := pso, storeBarrierPending := false } rd old) := by
    rw [atomic, aligned_of_mod (size := .word) _ hz, if_neg (by simp [hb, hw]), memRead_register (hm _) hk hr]
    show (memWrite { s with mmu := m } .second asi va v .word).bind _ = _
    have hm2 : missPresented { s with mmu := m } .second = none := hm .second
    rw [memWrite_register hm2 hk hwr]
    rfl
  obtain ⟨t, ht, hregs, hmem, hrest⟩ :=
    writeResult_writesReg { s with mmu := m', psoMode := pso, storeBarrierPending := false } rd old
  rw [hi, hx]
  exact ⟨t, ht, hregs.congr_left rfl rfl rfl, hmem, hrest⟩

end

/-! ### The registers by their addresses -/

section
variable (s : State) {va : Word} (v : Word)

theorem mmuRegister_control (h : va.toNat / 256 % 16 = 0) :
    mmuRegisterRead s va = some (mmuControlWord s, s) ∧
      mmuRegisterWrite s va v = some { s with
        mmu := { s.mmu with
          sc := BitVec.ofNat 16 (v.toNat / 256) &&& s.cfg.mmuScMask, pso := v.getLsbD 7
          nf := v.getLsbD 1, e := v.getLsbD 0 }
        psoMode := s.cfg.psoSupported && v.getLsbD 7 } := by
  have hsc : BitVec.ofNat 16 (v.toNat / 256) = v.extractLsb' 8 16 := (extract_eq_ofNat v 8 16).symm
  rw [hsc]
  simp only [mmuRegisterRead, mmuRegisterWrite, registerSelect, h, and_self]

theorem mmuRegister_contextTable (h : va.toNat / 256 % 16 = 1) :
    mmuRegisterRead s va = some (BitVec.ofNat 32 (s.mmu.ctp.toNat * 4), s) ∧
      mmuRegisterWrite s va v = some { s with mmu := { s.mmu with ctp := BitVec.ofNat 30 (v.toNat / 4) } } := by
  have hctp : BitVec.ofNat 30 (v.toNat / 4) = v.extractLsb' 2 30 := (extract_eq_ofNat v 2 30).symm
  rw [hctp, ← contextTableWord_eq]
  simp only [mmuRegisterRead, mmuRegisterWrite, registerSelect, h, and_self]

theorem mmuRegister_context (h : va.toNat / 256 % 16 = 2) :
    mmuRegisterRead s va = some (BitVec.ofNat 32 (s.mmu.context.toNat % 2 ^ s.cfg.mmuContextBits.val), s) ∧
      mmuRegisterWrite s va v = some { s with
        mmu := { s.mmu with context := BitVec.ofNat 32 (v.toNat % 2 ^ s.cfg.mmuContextBits.val) } } := by
  rw [← and_contextMask, ← and_contextMask]
  simp only [mmuRegisterRead, mmuRegisterWrite, registerSelect, h, and_self]

theorem mmuRegister_status (h : va.toNat / 256 % 16 = 3) :
    mmuRegisterRead s va = some (mmuStatusWord s.mmu.status, { s with
        mmu := { s.mmu with status := ⟨0#8, 0#2, 0#3, 0#3, false, false⟩, statusClass := none } }) ∧
      mmuRegisterWrite s va v = some s := by
  simp only [mmuRegisterRead, mmuRegisterWrite, registerSelect, h, and_self]

theorem mmuRegister_address (h : va.toNat / 256 % 16 = 4) :
    mmuRegisterRead s va = some (s.mmu.far, s) ∧ mmuRegisterWrite s va v = some s := by
  simp only [mmuRegisterRead, mmuRegisterWrite, registerSelect, h, and_self]

theorem mmuRegister_none (h : 5 ≤ va.toNat / 256 % 16) :
    mmuRegisterRead s va = none ∧ mmuRegisterWrite s va v = none := by
  rw [← registerSelect] at h
  unfold mmuRegisterRead mmuRegisterWrite
  generalize (va.extractLsb' 8 4).toNat = k at h
  match k, h with
  | n + 5, _ => exact ⟨rfl, rfl⟩

end

/-- Settles O55. -/
theorem mmuRegisterAccess : Obligations.MmuRegisterAccess := by
  intro s rd rs1 rs2 asi hs hmc hk a m bit reads v writesPso writes free swapsPso swaps control controlled status cleared
    context ha
  have hm (k : AccessKind) : missPresented s k = none := (accessQuiet_of_none hmc k).1
  have load {w : Word} (hr : mmuRegisterRead s (reg s rs1 + reg s rs2) = some (w, s)) : reads w :=
    register_loads hm hk ha (exec_supervisor hs rfl) hr
  have store {m' : Mmu} {pso : Bool} (hw : mmuRegisterWrite (clearBarrier s) (reg s rs1 + reg s rs2) v =
      some { s with mmu := m', psoMode := pso, storeBarrierPending := false }) : writesPso m' pso :=
    register_stores hm hk ha (exec_supervisor hs rfl) hw
  have swap {old : Word} {m0 m' : Mmu} {pso : Bool}
      (hr : mmuRegisterRead s (reg s rs1 + reg s rs2) = some (old, { s with mmu := m0 }))
      (hw : mmuRegisterWrite (clearBarrier { s with mmu := m0 }) (reg s rs1 + reg s rs2) v =
        some { s with mmu := m', psoMode := pso, storeBarrierPending := false }) : swapsPso old m' pso :=
    fun hfree => register_swaps hm hk ha hfree.1 hfree.2 (exec_supervisor hs rfl) hr hw
  refine ⟨fun h => ?control, fun h => ?table, fun h => ?context, fun h => ?status, fun h => ?address, ?_⟩
  case control =>
    obtain ⟨hr, -⟩ := mmuRegister_control s v h
    have hw := (mmuRegister_control (clearBarrier s) v h).2
    rw [show mmuControlWord s = control from mmuControlWord_eq s] at hr
    exact ⟨load hr, store hw, swap (m0 := m) hr hw⟩
  case table =>
    obtain ⟨hr, -⟩ := mmuRegister_contextTable s v h
    have hw := (mmuRegister_contextTable (clearBarrier s) v h).2
    exact ⟨load hr, store hw, swap (m0 := m) hr hw⟩
  case context =>
    obtain ⟨hr, -⟩ := mmuRegister_context s v h
    have hw := (mmuRegister_context (clearBarrier s) v h).2
    exact ⟨load hr, store hw, swap (m0 := m) hr hw⟩
  case status =>
    obtain ⟨hr, -⟩ := mmuRegister_status s v h
    have hw := (mmuRegister_status (clearBarrier s) v h).2
    have hw' := (mmuRegister_status (clearBarrier { s with mmu := cleared }) v h).2
    rw [show mmuStatusWord s.mmu.status = status from mmuStatusWord_eq s.mmu.status] at hr
    refine ⟨?_, store hw, swap hr hw'⟩
    have hx : loadInt s asi (reg s rs1 + reg s rs2) .word id rd = .done (writeResult { s with mmu := cleared } rd status) := by
      rw [loadInt, aligned_of_mod (size := .word) _ ha, memRead_register (hm _) hk hr]
      rfl
    rw [show exec (.lda rd rs1 (.reg asi rs2)) s = _ from (exec_supervisor hs rfl).trans (congrArg Res.out hx)]
    exact writeResult_writesReg { s with mmu := cleared } rd status
  case address =>
    obtain ⟨hr, -⟩ := mmuRegister_address s v h
    have hw := (mmuRegister_address (clearBarrier s) v h).2
    exact ⟨load hr, store hw, swap (m0 := m) hr hw⟩
  intro traps stored
  have ha2 : a % 2 = 0 := by omega
  have reads {z : Size} (h : z = .word → 5 ≤ a / 256 % 16) :
      memRead s .first asi (reg s rs1 + reg s rs2) z = .fault .dataAccessException s :=
    memRead_noRegister (hm _) hk fun hz => (mmuRegister_none s v (h hz)).1
  have writes (w : Word) {z : Size} (h : z = .word → 5 ≤ a / 256 % 16) :
      memWrite s .first asi (reg s rs1 + reg s rs2) w z = .fault .dataAccessException stored :=
    memWrite_noRegister (hm _) hk fun hz => (mmuRegister_none (clearBarrier s) w (h hz)).2
  have noWord {z : Size} (hz : z ≠ .word) : z = .word → 5 ≤ a / 256 % 16 := fun h => absurd h hz
  have trap {i : Instr} {r : Res} {u : State} (hi : exec i s = (privileged s r).out) (hr : r = .trap .dataAccessException u) :
      traps i u := (exec_supervisor hs hi).trans (congrArg Res.out hr)
  refine ⟨fun h => ⟨?_, ?_, fun hf => ?_⟩, ?_, ?_, ?_, fun hf => ?_, fun h8 hev => ⟨?_, ?_⟩⟩
  · exact trap rfl (loadInt_fails (z := .word) ha (reads fun _ => h) _ _)
  · exact trap rfl (storeInt_fails (z := .word) ha (writes _ fun _ => h))
  · exact trap rfl (atomic_fails (z := .word) ha hf.1 hf.2 (reads fun _ => h) _ _)
  · have load {z : Size} (hz : a % z.alignment = 0) (hne : z ≠ .word) (e : Word → Word) :
        loadInt s asi (reg s rs1 + reg s rs2) z e rd = .trap .dataAccessException s :=
      loadInt_fails hz (reads (noWord hne)) e rd
    simp only [List.forall_mem_cons, List.not_mem_nil, false_imp_iff, implies_true, and_true]
    exact ⟨trap rfl (load (z := .byte) (Nat.mod_one _) (by decide) id), trap rfl (load (z := .half) ha2 (by decide) id),
      trap rfl (load (z := .byte) (Nat.mod_one _) (by decide) _), trap rfl (load (z := .half) ha2 (by decide) _)⟩
  · exact trap rfl (storeInt_fails (z := .byte) (Nat.mod_one _) (writes _ (noWord (by decide))))
  · exact trap rfl (storeInt_fails (z := .half) ha2 (writes _ (noWord (by decide))))
  · exact trap rfl (atomic_fails (z := .byte) (Nat.mod_one _) hf.1 hf.2 (reads (noWord (by decide))) _ _)
  · exact trap rfl ((evenRd_even _ hev).trans (loadPair_fails h8 (reads (noWord (by decide))) rd))
  · exact trap rfl ((evenRd_even _ hev).trans (storePair_fails h8 (writes _ (noWord (by decide)))))

end Sys2Proof.Machine
end

section
/-! Translation by the page descriptor cache, flush and probe (21_reference_mmu.md R176, R195 to R201, R215 to R225). -/

namespace Sys2Proof.Machine

/-! ### The first entry that fits -/

theorem translateCached_cached {s : State} {k : AccessKind} {asi : BitVec 8} {va : Word} {store : Bool} {x : PdcEntry}
    (h : pdcPte s va = some x) : translateCached s k asi va store = checkedAccess s x asi va store := by
  unfold translateCached
  simp only [h]

/-- An entry that the cache has for the address translates it, without a look at the tables. -/
theorem translate_cached {s : State} {k : AccessKind} {asi : BitVec 8} {va : Word} {store : Bool} {x : PdcEntry}
    (hc : pdcPte s va = some x) (ha : x.entry.toNat / 256 * 4096 % 2 ^ regionShift x.level = 0) :
    let bits := accessBits store
    let access := accessType asi store
    let ft := permissionFault access (entryAcc x.entry)
    let pa := x.entry.toNat / 256 * 4096 + va.toNat % 2 ^ regionShift x.level
    (ft ≠ 0#3 → ∃ (p : BitVec 36) (t : State), translateCached s k asi va store = .fault ft (some p) t ∧ p.toNat = pa ∧
      FaultRecorded s.mmu t.mmu (faultClass asi) (BitVec.ofNat 2 x.level) access ft false va ∧
        t = { s with mmu := t.mmu, freeDraws := t.freeDraws }) ∧
    (ft = 0#3 → ∃ (p : BitVec 36) (t : State), translateCached s k asi va store = .ok p x.level t ∧ p.toNat = pa ∧
      (x.entry &&& bits = bits → t = s) ∧
        (x.entry &&& bits ≠ bits →
          StoresBytes s t x.entryPa (bytesOfWord (wordAt s x.entryPa ||| (bits &&& ~~~x.entry))) ∧
            t = { s with mem := t.mem, mmu := { s.mmu with pdc := pdcMarked s.mmu.pdc x bits } })) := by
  intro bits access ft pa
  have hpa := pagePa_toNat va ha
  have hx := translateCached_cached (k := k) (asi := asi) (store := store) hc
  refine ⟨fun hf => ?_, fun hf => ?_⟩
  · obtain ⟨hrec, hrest⟩ := recordFault_recorded s (faultClass asi) (BitVec.ofNat 2 x.level) access ft false va
    exact ⟨_, _, hx.trans (checkedAccess_refused hf), hpa, hrec, hrest⟩
  · exact ⟨_, _, hx.trans (checkedAccess_allowed hf), hpa, markAccessed_set, markAccessed_clear⟩

/-! ### The C bit -/

theorem locationKind_entry {s : State} {asi : BitVec 8} {va : Word} {x : PdcEntry} (ht : translating s = true)
    (ha : architecturalAsis.contains asi = true) (hc : pdcPte s va = some x) (pa : Nat) :
    locationKind s asi va pa =
      if regionKind s.cfg asi pa ≠ .unmapped ∧ s.cfg.uncacheableIsIo = true ∧ x.entry.getLsbD 7 = false then .io
      else regionKind s.cfg asi pa := by
  have hio : ioByEntry s asi va = (s.cfg.uncacheableIsIo && !x.entry.getLsbD 7) := by
    unfold ioByEntry
    rw [ht, ha, hc]
    simp [entryCacheable]
  unfold locationKind
  rw [hio]
  cases regionKind s.cfg asi pa <;> simp

/-! ### The address spaces of Appendix I -/

/-- What an address space is by Appendix I alone (21_reference_mmu.md R215 to R225). -/
def appendixKind (a : BitVec 8) : AsiKind :=
  if architecturalAsis.contains a then .normal
  else if a = 0x03#8 then .flushProbe
  else if a = 0x04#8 then .mmuRegister
  else if a.extractLsb' 4 4 = 2#4 then .physical (a.extractLsb' 0 4) true
  else if (0x10#8 ≤ a ∧ a ≤ 0x14#8) ∨ (0x18#8 ≤ a ∧ a ≤ 0x1C#8) then .cacheFlush
  else .undefined

theorem decodedAsi_full {c : Config} (h : c.asiDecodeMask = 0xFF#8) (asi : BitVec 8) : decodedAsi c asi = asi := by
  have hmask (v : BitVec 8) : v &&& 0xFF#8 = v := BitVec.and_allOnes
  unfold decodedAsi
  split
  · rfl
  · next ha =>
    have hnone : architecturalAsis.find? (fun k => k &&& c.asiDecodeMask == asi &&& c.asiDecodeMask) = none := by
      refine List.find?_eq_none.mpr fun k hk he => ha ?_
      rw [h, hmask, hmask, beq_iff_eq] at he
      rw [← he]
      exact List.contains_iff_mem.mpr hk
    rw [hnone, h, hmask]
    rfl

theorem asiKind_appendix {c : Config} {asi : BitVec 8} (hm : c.mmuPresent = true) (hd : c.asiDecodeMask = 0xFF#8)
    (hl : c.asiMap.lookup asi = none) : asiKind c asi = appendixKind asi := by
  unfold asiKind appendixKind
  simp only [decodedAsi_full hd, hl, hm, Bool.not_true, Bool.false_eq_true, if_false]

theorem appendixKind_spaces :
    ∀ asi : BitVec 8, (asi = 0x03#8 ↔ appendixKind asi = .flushProbe) ∧ (asi = 0x04#8 ↔ appendixKind asi = .mmuRegister) ∧
      (asi ∈ [0x10#8, 0x11#8, 0x12#8, 0x13#8, 0x14#8, 0x18#8, 0x19#8, 0x1A#8, 0x1B#8, 0x1C#8] ↔
        appendixKind asi = .cacheFlush) := by
  decide

theorem appendixKind_passThrough :
    ∀ n : BitVec 4, appendixKind (BitVec.ofNat 8 (0x20 + n.toNat)) = .physical n true := by
  decide

/-- The flush and probe space is the MMU's own: there is none without it. -/
theorem missPresented_flushProbe {s : State} {asi : BitVec 8} (h : asiKind s.cfg asi = .flushProbe) (k : AccessKind) :
    missPresented s k = none := by
  have hp : s.cfg.mmuPresent = true := by
    by_contra hn
    rw [Bool.not_eq_true] at hn
    unfold asiKind at h
    simp only [hn] at h
    split at h
    · cases h
    · split at h <;> simp at h
  exact if_pos hp

/-! ### Accesses in the flush and probe space and in the cache-flush spaces -/

section
variable {s : State} {k : AccessKind} {asi : BitVec 8}

theorem route_flushProbe (hm : missPresented s k = none) (hk : asiKind s.cfg asi = .flushProbe) (va : Word) (store : Bool) :
    route s k asi va store = .ok .flushProbe s := by
  unfold route
  simp only [hm, hk]

theorem route_cacheFlush (hm : missPresented s k = none) (hk : asiKind s.cfg asi = .cacheFlush) (va : Word) (store : Bool) :
    route s k asi va store = .ok .cacheFlush s := by
  unfold route
  simp only [hm, hk]

theorem memRead_mmuSpace {z : Size} (hm : missPresented s k = none)
    (hk : asiKind s.cfg asi = .flushProbe ∧ z ≠ .word ∨ asiKind s.cfg asi = .cacheFlush) (va : Word) :
    memRead s k asi va z = .fault (accessException k) s := by
  rcases hk with ⟨hk, hz⟩ | hk
  · rw [memRead, route_flushProbe hm hk]
    exact if_neg hz
  · rw [memRead, route_cacheFlush hm hk]
    rfl

theorem memWrite_mmuSpace {z : Size} (hm : missPresented s k = none)
    (hk : asiKind s.cfg asi = .flushProbe ∨ asiKind s.cfg asi = .cacheFlush) (hz : z ≠ .word) (va v : Word) :
    memWrite s k asi va v z = .fault (accessException k) (clearBarrier s) := by
  rcases hk with hk | hk
  · rw [memWrite, writeRoute, route_flushProbe (s := clearBarrier s) hm hk]
    exact if_neg hz
  · rw [memWrite, writeRoute, route_cacheFlush (s := clearBarrier s) hm hk]
    exact if_neg hz

theorem memWrite_cacheFlush (hm : missPresented s k = none) (hk : asiKind s.cfg asi = .cacheFlush) (va v : Word) :
    memWrite s k asi va v .word = .ok () (clearBarrier s) := by
  rw [memWrite, writeRoute, route_cacheFlush (s := clearBarrier s) hm hk]
  rfl

theorem memRead_probe (hk : asiKind s.cfg asi = .flushProbe) (va : Word) :
    memRead s k asi va .word = .ok (mmuProbe s k va).1 (mmuProbe s k va).2 := by
  rw [memRead, route_flushProbe (missPresented_flushProbe hk k) hk]
  rfl

theorem memWrite_flush (hk : asiKind s.cfg asi = .flushProbe) (va v : Word) :
    memWrite s k asi va v .word = .ok () (mmuFlush (clearBarrier s) va) := by
  rw [memWrite, writeRoute, route_flushProbe (s := clearBarrier s) (missPresented_flushProbe (s := clearBarrier s) hk k) hk]
  rfl

end

/-! ### Flush -/

/-- Is a cached entry the object of a flush by an address (21_reference_mmu.md R196 to R198). -/
def FlushedBy (s : State) (va : Word) (x : PdcEntry) : Prop :=
  let kind := va.toNat / 256 % 16
  let pte := x.entry.toNat % 4 = 2
  let supervisor := 6 ≤ (x.entry.extractLsb' 2 3).toNat
  let context := x.context = s.mmu.context ∨ pte ∧ supervisor
  let same (shift : Nat) : Prop := x.va.toNat / 2 ^ shift = va.toNat / 2 ^ shift
  (kind = 0 ∧ context ∧ x.level = 3 ∧ same 12) ∨ (kind = 1 ∧ context ∧ 2 ≤ x.level ∧ same 18) ∨
    (kind = 2 ∧ context ∧ 1 ≤ x.level ∧ same 24) ∨
      (kind = 3 ∧ x.context = s.mmu.context ∧ ¬(pte ∧ supervisor)) ∨ kind = 4

theorem flushes_iff (s : State) (va : Word) (x : PdcEntry) :
    (if entryType x.entry = 2#2 then flushesPte s (va.extractLsb' 8 4).toNat va x
      else flushesPtd s (va.extractLsb' 8 4).toNat va x) = true ↔ FlushedBy s va x := by
  rw [registerSelect, FlushedBy]
  generalize va.toNat / 256 % 16 = kind
  have h3 := sameRegion_iff 3 x.va va
  have h2 := sameRegion_iff 2 x.va va
  have h1 := sameRegion_iff 1 x.va va
  simp only [regionShift] at h3 h2 h1
  have hs := supervisorPage_iff x.entry
  by_cases hp : x.entry.toNat % 4 = 2
  · rw [if_pos ((entryType_pte _).mpr hp)]
    match kind with
    | 0 => simp [flushesPte, h3, hs, hp, or_comm, and_left_comm, and_comm]
    | 1 => simp [flushesPte, h2, hs, hp, or_comm, and_left_comm, and_comm]
    | 2 => simp [flushesPte, h1, hs, hp, or_comm, and_left_comm, and_comm]
    | 3 =>
      show (!decide (6#3 ≤ entryAcc x.entry) && x.context == s.mmu.context) = true ↔ _
      rw [Bool.and_eq_true, Bool.not_eq_true', ← Bool.not_eq_true, hs, beq_iff_eq]
      simp [hp, and_comm]
    | 4 => simp [flushesPte]
    | n + 5 => simp [flushesPte]
  · rw [if_neg (mt (entryType_pte _).mp hp)]
    match kind with
    | 0 => simp [flushesPtd, h3, hp, and_left_comm, and_comm]
    | 1 => simp [flushesPtd, h2, hp, and_left_comm, and_comm]
    | 2 => simp [flushesPtd, h1, hp, and_left_comm, and_comm]
    | 3 => simp [flushesPtd, hp]
    | 4 => simp [flushesPtd]
    | n + 5 => simp [flushesPtd]

end Sys2Proof.Machine
end

section
/-! Probes of the Reference MMU (21_reference_mmu.md R199, R200), and the statement of flush, probe and cache. -/

namespace Sys2Proof.Machine

/-! ### A flush -/

theorem mem_mmuFlush (s : State) (va : Word) (x : PdcEntry) :
    x ∈ (mmuFlush s va).mmu.pdc ↔ x ∈ s.mmu.pdc ∧ ¬FlushedBy s va x := by
  rw [← flushes_iff, Bool.not_eq_true, ← Bool.not_eq_true']
  exact List.mem_filter

/-! ### A probe in the cache -/

/-- Is a cached entry what a probe by an address looks for (R199). -/
def ProbedBy (s : State) (va : Word) (y : PdcEntry) : Prop :=
  let kind := va.toNat / 256 % 16
  let pte : Prop := y.entry.toNat % 4 = 2
  (kind = 4 ∧ pte ∨ y.level = 3 - kind ∧ kind ≠ 4) ∧
    y.va.toNat / 2 ^ regionShift y.level = va.toNat / 2 ^ regionShift y.level ∧
      (y.context = s.mmu.context ∨ s.cfg.pdcIgnoresContext = true ∧ pte ∧ 6 ≤ (y.entry.extractLsb' 2 3).toNat)

theorem probedBy_translates {s : State} {va : Word} (h : va.toNat / 256 % 16 = 4) (y : PdcEntry) :
    ProbedBy s va y ↔ Translates s va y := by
  rw [ProbedBy, Translates, h]
  constructor
  · rintro ⟨⟨-, hp⟩ | ⟨-, hk⟩, hs, hc⟩
    · exact ⟨hp, hs, hc.imp_right fun ⟨hi, _, ha⟩ => ⟨hi, ha⟩⟩
    · exact absurd rfl hk
  · rintro ⟨hp, hs, hc⟩
    exact ⟨.inl ⟨rfl, hp⟩, hs, hc.imp_right fun ⟨hi, ha⟩ => ⟨hi, hp, ha⟩⟩

theorem probedBy_level {s : State} {va : Word} (h : va.toNat / 256 % 16 ≠ 4) (y : PdcEntry) :
    (y.level == 3 - va.toNat / 256 % 16 && pdcMatches s va y) = true ↔ ProbedBy s va y := by
  rw [Bool.and_eq_true, beq_iff_eq, pdcMatches_iff, ProbedBy]
  constructor
  · rintro ⟨hl, hc, hs⟩
    exact ⟨.inr ⟨hl, h⟩, hs, hc⟩
  · rintro ⟨⟨hk, -⟩ | ⟨hl, -⟩, hs, hc⟩
    · exact absurd hk h
    · exact ⟨hl, hc, hs⟩

section
variable {s : State} {va : Word} {k : AccessKind}

theorem probeCached_pte (hk : va.toNat / 256 % 16 = 4) {x : PdcEntry} (h : pdcPte s va = some x) :
    probeCached s k va = (x.entry, s) := by
  unfold probeCached
  rw [registerSelect, hk]
  simp [h]

theorem probeCached_level (hk : va.toNat / 256 % 16 < 4) {x : PdcEntry}
    (h : s.mmu.pdc.find? (fun x => x.level == 3 - va.toNat / 256 % 16 && pdcMatches s va x) = some x) :
    probeCached s k va = (x.entry, s) := by
  unfold probeCached
  rw [registerSelect, if_neg (by omega), if_neg (by omega)]
  simp only [h]

/-- The first entry of the cache that a probe looks for is what it delivers. -/
theorem probeCached_first (hk : va.toNat / 256 % 16 ≤ 4) {before rest : List PdcEntry} {x : PdcEntry}
    (hp : s.mmu.pdc = before ++ x :: rest) (hb : ∀ y ∈ before, ¬ProbedBy s va y) (hx : ProbedBy s va x) :
    probeCached s k va = (x.entry, s) := by
  by_cases h4 : va.toNat / 256 % 16 = 4
  · have translates := probedBy_translates (s := s) h4
    exact probeCached_pte h4
      (pdcPte_first hp (fun y hy => mt (translates y).mpr (hb y hy)) ((translates x).mp hx))
  · have level := probedBy_level (s := s) h4
    exact probeCached_level (by omega)
      (find_first hp (fun y hy => mt (level y).mp (hb y hy)) ((level x).mpr hx))

/-! ### A probe of the tables -/

theorem probeFrom_unreadable {target below level pa : Nat} (hl : target - below = level)
    (h : readEntry s k va level pa = none) : probeFrom s k va target below pa = (0#32, some level) := by
  subst hl
  cases below with
  | zero => simp only [probeFrom, Nat.sub_zero] at h ⊢; simp only [h]
  | succ n => simp only [probeFrom, h]

theorem probeFrom_found {target pa : Nat} {e : Word} (h : readEntry s k va target pa = some e) :
    probeFrom s k va target 0 pa =
      (if e.toNat % 4 = 3 ∨ target = 3 ∧ e.toNat % 4 = 1 then 0#32 else e, none) := by
  simp only [probeFrom, h, entryType_reserved, entryType_ptd]
  split <;> rfl

theorem probeFrom_missing {target below pa : Nat} {e : Word} (h : readEntry s k va (target - (below + 1)) pa = some e)
    (he : e.toNat % 4 ≠ 1) : probeFrom s k va target (below + 1) pa = (0#32, none) := by
  simp only [probeFrom, h, entryType_ptd, if_neg he]

theorem probeFrom_ptd {target below level pa : Nat} {e : Word} (hl : target - (below + 1) = level)
    (h : readEntry s k va level pa = some e) (he : e.toNat % 4 = 1) :
    probeFrom s k va target (below + 1) pa = probeFrom s k va target below (nextPa e va level) := by
  subst hl
  simp only [probeFrom, h, entryType_ptd, if_pos he]

/-- Down a row of PTDs a probe comes to the entry below them. -/
theorem probe_descends {e : Nat → Word} {target : Nat} (n : Nat) (hn : n ≤ target) (ht : target ≤ 3)
    (h : ∀ i, i < n → EntryHolds s k va e i ∧ (e i).toNat % 4 = 1) :
    probeFrom s k va target target (rootPa s) = probeFrom s k va target (target - n) (tablePlace s va e n) := by
  induction n with
  | zero => rfl
  | succ n ih =>
    obtain ⟨hread, hptd⟩ := h n (Nat.lt_succ_self n)
    rw [ih (by omega) fun i hi => h i (Nat.lt_succ_of_lt hi), show target - n = target - (n + 1) + 1 by omega,
      probeFrom_ptd (level := n) (by omega) hread.read hptd, nextPa_place s va e (by omega)]

/-! ### What a probe comes to -/

variable (hpdc : s.mmu.pdc = [])
include hpdc

theorem pdcPtd_empty (level : Nat) : pdcPtd s va level = none := by
  rw [pdcPtd, hpdc]
  rfl

theorem pdcPte_empty : pdcPte s va = none := by
  rw [pdcPte, hpdc]
  rfl

theorem probeCached_tables (hk : va.toNat / 256 % 16 < 4) {target : Nat} (ht : 3 - va.toNat / 256 % 16 = target) {v : Word}
    (h : probeFrom s k va target target (rootPa s) = (v, none)) : probeCached s k va = (v, s) := by
  subst ht
  unfold probeCached
  rw [registerSelect, if_neg (by omega), if_neg (by omega), hpdc]
  simp only [List.find?_nil, h]

theorem probeCached_error (hk : va.toNat / 256 % 16 < 4) {target : Nat} (ht : 3 - va.toNat / 256 % 16 = target) {v : Word}
    {level : Nat} (h : probeFrom s k va target target (rootPa s) = (v, some level)) :
    probeCached s k va = (v, probeBusError s va level) := by
  subst ht
  unfold probeCached
  rw [registerSelect, if_neg (by omega), if_neg (by omega), hpdc]
  simp only [List.find?_nil, h]

theorem probeCached_walked (hk : va.toNat / 256 % 16 = 4) {e : Word} {level pa : Nat} {ptds : List PdcEntry}
    (h : walk s k va = .pte e level pa ptds) :
    probeCached s k va = (e, pdcInsert s (⟨s.mmu.context, va, level, e, pa⟩ :: ptds)) := by
  unfold probeCached
  rw [registerSelect, hk]
  simp [pdcPte_empty hpdc, h]

theorem probeCached_noPte (hk : va.toNat / 256 % 16 = 4) {ft : BitVec 3} {level : Nat} {bus : Bool}
    (h : walk s k va = .fault ft level bus) :
    probeCached s k va = (0#32, if bus then probeBusError s va level else s) := by
  unfold probeCached
  rw [registerSelect, hk]
  simp [pdcPte_empty hpdc, h]

section
variable {e : Nat → Word} {n : Nat} (hn : n ≤ 3) (hrow : ∀ i, i < n → EntryHolds s k va e i ∧ (e i).toNat % 4 = 1)
include hn hrow

/-- An entry that cannot be read, above or at the probed one, ends the probe. -/
theorem probe_unreadable (hk : va.toNat / 256 % 16 + n ≤ 3 ∨ va.toNat / 256 % 16 = 4)
    (h : readEntry s k va n (tablePlace s va e n) = none) :
    probeCached s k va = (0#32, probeBusError s va n) := by
  rcases hk with hk | hk
  · refine probeCached_error hpdc (by omega) rfl ?_
    rw [probe_descends n (by omega) (by omega) hrow]
    exact probeFrom_unreadable (by omega) h
  · have hlevel : 3 - (3 - n) = n := by omega
    have hw := walk_descends n hn hrow
    rw [walkFrom_unreadable (by rwa [hlevel]), hlevel] at hw
    exact probeCached_noPte hpdc hk hw

/-- What a probe delivers of the first entry at or above the probed one that is no PTD. -/
theorem probe_delivers (h : readEntry s k va n (tablePlace s va e n) = some (e n)) :
    (va.toNat / 256 % 16 + n = 3 → (probeCached s k va).1 =
      if (e n).toNat % 4 = 3 ∨ n = 3 ∧ (e n).toNat % 4 = 1 then 0#32 else e n) ∧
    (va.toNat / 256 % 16 + n < 3 → (e n).toNat % 4 ≠ 1 → (probeCached s k va).1 = 0#32) ∧
    (va.toNat / 256 % 16 = 4 →
      ((e n).toNat % 4 = 2 → (probeCached s k va).1 = e n) ∧
        ((e n).toNat % 4 = 0 ∨ (e n).toNat % 4 = 3 ∨ n = 3 ∧ (e n).toNat % 4 = 1 → (probeCached s k va).1 = 0#32)) := by
  have hlevel : 3 - (3 - n) = n := by omega
  have hw := walk_descends n hn hrow
  have h' : readEntry s k va (3 - (3 - n)) (tablePlace s va e n) = some (e n) := by rwa [hlevel]
  refine ⟨fun hk => ?_, fun hk he => ?_, fun hk => ⟨fun he => ?_, fun he => ?_⟩⟩
  · have hp := probe_descends (target := n) n le_rfl hn hrow
    rw [Nat.sub_self, probeFrom_found h] at hp
    rw [probeCached_tables hpdc (by omega) (by omega) hp]
  · obtain ⟨m, hm⟩ : ∃ m, 3 - va.toNat / 256 % 16 - n = m + 1 := ⟨3 - va.toNat / 256 % 16 - n - 1, by omega⟩
    have hp := probe_descends (target := 3 - va.toNat / 256 % 16) n (by omega) (Nat.sub_le 3 _) hrow
    rw [hm, probeFrom_missing (by rwa [show 3 - va.toNat / 256 % 16 - (m + 1) = n by omega]) he] at hp
    rw [probeCached_tables hpdc (by omega) rfl hp]
  · rw [walkFrom_pte h' he] at hw
    rw [probeCached_walked hpdc hk hw]
  · rcases he with he | he
    · rw [walkFrom_invalid h' he] at hw
      rw [probeCached_noPte hpdc hk hw]
    · rw [walkFrom_reserved h' (he.imp_right fun hr => ⟨hr.2, by omega⟩)] at hw
      rw [probeCached_noPte hpdc hk hw]

end

end

/-! ### What a probe leaves -/

theorem recordFault_context (s : State) (cls : FaultClass) (level : BitVec 2) (access ft : BitVec 3) (bus : Bool)
    (va : Word) : (recordFault s cls level access ft bus va).mmu.context = s.mmu.context := by
  unfold recordFault
  split <;> rfl

/-- What every probe leaves of the state. -/
def ProbeKeeps (s t : State) (va : Word) : Prop :=
  t = { s with mmu := t.mmu, freeDraws := t.freeDraws } ∧ t.mmu.context = s.mmu.context ∧
    (va.toNat / 256 % 16 ≤ 3 → t.mmu.pdc = s.mmu.pdc)

theorem probeBusError_keeps (s : State) (va : Word) (level : Nat) : ProbeKeeps s (probeBusError s va level) va :=
  ⟨(recordFault_recorded ..).2, recordFault_context .., fun _ => recordFault_pdc ..⟩

theorem probeCached_keeps (s : State) (k : AccessKind) (va : Word) : ProbeKeeps s (probeCached s k va).2 va := by
  have same : ProbeKeeps s s va := ⟨rfl, rfl, fun _ => rfl⟩
  unfold probeCached
  rw [registerSelect]
  dsimp only
  split
  · exact ⟨rfl, rfl, fun _ => rfl⟩
  split
  case isTrue h4 =>
    split
    · exact same
    split
    · exact ⟨rfl, rfl, fun h => absurd h (by omega)⟩
    split
    · exact probeBusError_keeps ..
    · exact same
  split
  · exact same
  split
  · exact same
  · exact probeBusError_keeps ..

/-! ### The instructions -/

section
variable {s : State} {rd rs1 rs2 : RegNum} {asi : BitVec 8} (hs : s.psr.s = true) (hk : asiKind s.cfg asi = .flushProbe)
  (hz : (reg s rs1 + reg s rs2).toNat % 4 = 0)
include hs hk hz

theorem lda_probes : exec (.lda rd rs1 (.reg asi rs2)) s =
    .next (writeResult (mmuProbe s .first (reg s rs1 + reg s rs2)).2 rd (mmuProbe s .first (reg s rs1 + reg s rs2)).1) := by
  have hx : loadInt s asi (reg s rs1 + reg s rs2) .word id rd = .done
      (writeResult (mmuProbe s .first (reg s rs1 + reg s rs2)).2 rd (mmuProbe s .first (reg s rs1 + reg s rs2)).1) := by
    rw [loadInt, aligned_of_mod (size := .word) _ hz, memRead_probe hk]
    rfl
  exact (exec_supervisor hs rfl).trans (congrArg Res.out hx)

theorem sta_flushes : exec (.sta rd rs1 (.reg asi rs2)) s =
    .next (advance (mmuFlush (clearBarrier s) (reg s rs1 + reg s rs2))) := by
  have hx : storeInt s asi (reg s rs1 + reg s rs2) .word (reg s rd) =
      .done (advance (mmuFlush (clearBarrier s) (reg s rs1 + reg s rs2))) := by
    rw [storeInt, aligned_of_mod (size := .word) _ hz, memWrite_flush hk]
    rfl
  exact (exec_supervisor hs rfl).trans (congrArg Res.out hx)

/-- SWAPA is a probe, then a flush as the probe left the MMU (log 21). -/
theorem swapa_probes_flushes (hb : s.blockByte = false) (hw : s.blockWord = false) :
    exec (.swapa rd rs1 (.reg asi rs2)) s =
      .next (writeResult (mmuFlush (clearBarrier (mmuProbe s .first (reg s rs1 + reg s rs2)).2) (reg s rs1 + reg s rs2)) rd
        (mmuProbe s .first (reg s rs1 + reg s rs2)).1) := by
  have hx : atomic s asi (reg s rs1 + reg s rs2) .word (reg s rd) rd =
      .done (writeResult (mmuFlush (clearBarrier (mmuProbe s .first (reg s rs1 + reg s rs2)).2) (reg s rs1 + reg s rs2)) rd
        (mmuProbe s .first (reg s rs1 + reg s rs2)).1) := by
    rw [atomic, aligned_of_mod (size := .word) _ hz, if_neg (by simp [hb, hw]), memRead_probe hk]
    show (memWrite _ .second asi _ _ .word).bind _ = _
    have hk' : asiKind (mmuProbe s .first (reg s rs1 + reg s rs2)).2.cfg asi = .flushProbe := by
      rw [mmuProbe, (probeCached_keeps (pdcEvict s) .first _).1]
      exact hk
    rw [memWrite_flush hk']
    rfl
  exact (exec_supervisor hs rfl).trans (congrArg Res.out hx)

end

/-- A register is written alike whatever the MMU and the store barrier are. -/
theorem writeResult_mmu (s : State) (m : Mmu) (b : Bool) (rd : RegNum) (v : Word) :
    writeResult { s with mmu := m, storeBarrierPending := b } rd v =
      { writeResult s rd v with mmu := m, storeBarrierPending := b } := by
  unfold writeResult setReg setRegIn
  split
  · rfl
  split <;> rfl

end Sys2Proof.Machine
end

section
/-! Flush, probe and the page descriptor cache as the instructions see them (21_reference_mmu.md sections 2, 4, 6). -/

namespace Sys2Proof.Machine

theorem writeResult_mmu_eq (s : State) (rd : RegNum) (v : Word) : (writeResult s rd v).mmu = s.mmu := setRegIn_mmu ..

theorem supervisor_traps {s t : State} {i : Instr} {r : Res} {x : Trap} (hs : s.psr.s = true)
    (hi : exec i s = (privileged s r).out) (hr : r = .trap x t) : Traps (exec i s) x t :=
  (exec_supervisor hs hi).trans (congrArg Res.out hr)

theorem pdcEvict_empty {s : State} (h : s.mmu.pdc = []) : (pdcEvict s).mmu = s.mmu := by
  have hp : (pdcEvict s).mmu.pdc = [] := List.sublist_nil.mp (h ▸ pdcEvict_sublist s)
  have hm : (pdcEvict s).mmu = { s.mmu with pdc := (pdcEvict s).mmu.pdc } := rfl
  rw [hm, hp, ← h]

theorem probedBy_iff (s : State) (va : Word) (y : PdcEntry) :
    (let kind := va.toNat / 256 % 16
      let width : Nat := if y.level = 0 then 32 else if y.level = 1 then 24 else if y.level = 2 then 18 else 12
      let pte : Prop := y.entry.toNat % 4 = 2
      (kind = 4 ∧ pte ∨ y.level = 3 - kind ∧ kind ≠ 4) ∧ y.va.toNat / 2 ^ width = va.toNat / 2 ^ width ∧
        (y.context = s.mmu.context ∨ s.cfg.pdcIgnoresContext = true ∧ pte ∧ 6 ≤ (y.entry.extractLsb' 2 3).toNat)) ↔
      ProbedBy s va y := by
  rw [ProbedBy, regionShift_eq]

section
variable {s : State} {rd rs1 rs2 : RegNum} {asi : BitVec 8} (hs : s.psr.s = true) (hk : asiKind s.cfg asi = .flushProbe)
  (hz : (reg s rs1 + reg s rs2).toNat % 4 = 0)
include hs hk hz

/-- A probe writes its register and changes nothing else but the MMU. -/
theorem probe_completes : Completes (exec (.lda rd rs1 (.reg asi rs2)) s) fun t =>
    let va := reg s rs1 + reg s rs2
    let p := probeCached (pdcEvict s) .first va
    RegsWritten s t s.psr.cwp [(rd, p.1)] ∧ t.mmu = p.2.mmu ∧ MemoryKept s t ∧
      (va.toNat / 256 % 16 ≤ 3 → ∀ x ∈ t.mmu.pdc, x ∈ s.mmu.pdc) ∧
        t = { s with
          pc := s.npc, npc := s.npc + 4#32, globals := t.globals, windowed := t.windowed
          mmu := t.mmu, freeDraws := t.freeDraws } := by
  obtain ⟨hrest, -, hpdc⟩ := probeCached_keeps (pdcEvict s) .first (reg s rs1 + reg s rs2)
  refine ⟨_, lda_probes hs hk hz, ?_⟩
  dsimp only
  unfold mmuProbe
  generalize probeCached (pdcEvict s) .first (reg s rs1 + reg s rs2) = p at hrest hpdc ⊢
  obtain ⟨v, q⟩ := p
  obtain ⟨m, n, rfl⟩ : ∃ m n, q = { s with mmu := m, freeDraws := n } := ⟨_, _, hrest⟩
  obtain ⟨t, ht, hregs, hmem, hframe⟩ := writeResult_writesReg { s with mmu := m, freeDraws := n } rd v
  have hmmu := writeResult_mmu_eq { s with mmu := m, freeDraws := n } rd v
  cases ht
  refine ⟨hregs.congr_left rfl rfl rfl, hmmu, hmem, fun hkind x hx => ?_, ?_⟩
  · rw [hmmu, show m.pdc = _ from hpdc hkind] at hx
    exact (pdcEvict_sublist s).subset hx
  · have hdraws : (writeResult { s with mmu := m, freeDraws := n } rd v).freeDraws = n := setRegIn_freeDraws ..
    rw [hmmu, hdraws]
    exact hframe

end

theorem writeResult_flushed (q : State) (va : Word) (rd : RegNum) (v : Word) :
    writeResult (mmuFlush (clearBarrier q) va) rd v = { writeResult q rd v with
      storeBarrierPending := false
      mmu := { (writeResult q rd v).mmu with pdc := (writeResult (mmuFlush (clearBarrier q) va) rd v).mmu.pdc } } := by
  rw [writeResult_mmu_eq, writeResult_mmu_eq]
  exact writeResult_mmu q (mmuFlush q va).mmu false rd v

/-- Settles O58. -/
theorem cacheFlushAndProbe : Obligations.CacheFlushAndProbe := by
  refine ⟨?translation, ?spaces, ?exceptions, ?cacheable, ?cached, ?instructions⟩
  case translation =>
    intro s kind asi va store before rest x width fits shift bits hp hb hx ha
    have hfits (y : PdcEntry) : fits y ↔ Translates s va y := by
      rw [Translates, regionShift_eq]
    have hshift : regionShift x.level = shift := regionShift_eq _
    have h := translate_cached (k := kind) (asi := asi) (store := store)
      (pdcPte_first hp (fun y hy => mt (hfits y).mpr (hb y hy)) ((hfits x).mp hx)) (by rw [hshift]; exact ha)
    rw [hshift] at h
    exact h
  case spaces =>
    intro c asi hm hd hl
    rw [asiKind_appendix hm hd hl]
    obtain ⟨hprobe, hregister, hflush⟩ := appendixKind_spaces asi
    refine ⟨hprobe, hregister, hflush, fun n hn => ?_⟩
    have hasi : asi = BitVec.ofNat 8 (0x20 + n.toNat) := BitVec.eq_of_toNat_eq (by
      rw [BitVec.toNat_ofNat, hn]
      omega)
    rw [hasi]
    exact appendixKind_passThrough n
  case exceptions =>
    intro s rd rs1 rs2 asi hs hmc alt va stored free even loads stores
    have hm (k : AccessKind) : missPresented s k = none := (accessQuiet_of_none hmc k).1
    refine ⟨fun hk => ?noWord, fun hk => ?flushSpace⟩
    case noWord =>
      have reads {z : Size} (hz : z ≠ .word) : memRead s .first asi (reg s rs1 + reg s rs2) z = .fault .dataAccessException s :=
        memRead_mmuSpace (hm _) (hk.imp_left fun h => ⟨h, hz⟩) _
      have writes (w : Word) {z : Size} (hz : z ≠ .word) :
          memWrite s .first asi (reg s rs1 + reg s rs2) w z = .fault .dataAccessException stored :=
        memWrite_mmuSpace (hm _) hk hz _ w
      have load {z : Size} (hz : z ≠ .word) (ha : va % z.alignment = 0) (e : Word → Word) :
          loadInt s asi (reg s rs1 + reg s rs2) z e rd = .trap .dataAccessException s :=
        loadInt_fails ha (reads hz) e rd
      refine ⟨fun h1 => ?_, fun h2 => ?_, fun h1 => ?_, fun h2 => ?_, fun hf h1 => ?_, fun hev => ⟨fun h8 => ?_, fun h8 => ?_⟩⟩
      all_goals simp only [List.forall_mem_cons, List.not_mem_nil, false_imp_iff, implies_true, and_true]
      · exact ⟨supervisor_traps hs rfl (load (z := .byte) (by decide) h1 id),
          supervisor_traps hs rfl (load (z := .byte) (by decide) h1 _)⟩
      · exact ⟨supervisor_traps hs rfl (load (z := .half) (by decide) h2 id),
          supervisor_traps hs rfl (load (z := .half) (by decide) h2 _)⟩
      · exact supervisor_traps hs rfl (storeInt_fails (z := .byte) h1 (writes _ (by decide)))
      · exact supervisor_traps hs rfl (storeInt_fails (z := .half) h2 (writes _ (by decide)))
      · exact supervisor_traps hs rfl (atomic_fails (z := .byte) h1 hf.1 hf.2 (reads (by decide)) _ _)
      · exact supervisor_traps hs rfl ((evenRd_even _ hev).trans (loadPair_fails h8 (reads (by decide)) rd))
      · exact supervisor_traps hs rfl ((evenRd_even _ hev).trans (storePair_fails h8 (writes _ (by decide))))
    case flushSpace =>
      have reads : memRead s .first asi (reg s rs1 + reg s rs2) .word = .fault .dataAccessException s :=
        memRead_mmuSpace (hm _) (.inr hk) _
      refine ⟨fun h4 => ?_, fun hf h4 => ?_, fun h4 => ?_⟩
      · simp only [List.forall_mem_cons, List.not_mem_nil, false_imp_iff, implies_true, and_true]
        exact supervisor_traps hs rfl (loadInt_fails (z := .word) h4 reads _ _)
      · simp only [List.forall_mem_cons, List.not_mem_nil, false_imp_iff, implies_true, and_true]
        exact supervisor_traps hs rfl (atomic_fails (z := .word) h4 hf.1 hf.2 reads _ _)
      · have hx : storeInt s asi (reg s rs1 + reg s rs2) .word (reg s rd) = .done (advance stored) := by
          rw [storeInt, aligned_of_mod (size := .word) _ h4, memWrite_cacheFlush (hm _) hk]
          rfl
        exact (exec_supervisor hs rfl).trans (congrArg Res.out hx)
  case cacheable =>
    intro s asi va pa x rest ht ha hp hc hl he hv kind
    have hcached : pdcPte s va = some x := by
      refine pdcPte_first (before := []) hp (fun y hy => absurd hy List.not_mem_nil) ⟨he, ?_, .inl hc⟩
      rw [hl]
      exact hv
    rw [locationKind_entry ht (List.contains_iff_mem.mpr ha) hcached]
    refine ⟨fun ⟨hu, hb, hn⟩ => if_pos ⟨hn, hu, hb⟩, fun h => if_neg ?_⟩
    rintro ⟨hn, hu, hb⟩
    rcases h with h | h | h
    · rw [hu] at h
      cases h
    · rw [hb] at h
      cases h
    · exact hn h
  case cached =>
    intro s access va before rest x kind width pte fits hk hp hb hx
    have hfits (y : PdcEntry) : fits y ↔ ProbedBy s va y := probedBy_iff s va y
    exact probeCached_first hk hp (fun y hy => mt (hfits y).mpr (hb y hy)) ((hfits x).mp hx)
  case instructions =>
    intro s rd rs1 rs2 asi hs hk va kind probe flushed hz
    refine ⟨?flush, fun hb hw t ht => ?swap, fun hkind => ?kept, probe_completes hs hk hz, fun hkind hpdc e => ?tables⟩
    case flush => exact ⟨_, sta_flushes hs hk hz, rfl, mem_mmuFlush (clearBarrier s) va⟩
    case swap =>
      cases (lda_probes hs hk hz).symm.trans ht
      refine ⟨_, swapa_probes_flushes hs hk hz hb hw, writeResult_flushed .., fun x => ?_⟩
      have hcontext : (mmuProbe s .first va).2.mmu.context = s.mmu.context := (probeCached_keeps (pdcEvict s) .first va).2.1
      have hflushed : FlushedBy (clearBarrier (mmuProbe s .first va).2) va x ↔ flushed x := by
        rw [FlushedBy, show (clearBarrier (mmuProbe s .first va).2).mmu.context = s.mmu.context from hcontext]
      rw [writeResult_mmu_eq, writeResult_mmu_eq, ← hflushed]
      exact mem_mmuFlush (clearBarrier (mmuProbe s .first va).2) va x
    case kept =>
      intro width pte fits kept
      refine ⟨pdcEvict_sublist s, fun before x rest hp hb hx => ?_⟩
      have hfits (y : PdcEntry) : fits y ↔ ProbedBy (pdcEvict s) va y := probedBy_iff (pdcEvict s) va y
      have hfound := probeCached_first (s := pdcEvict s) (k := .first) hkind hp (fun y hy => mt (hfits y).mpr (hb y hy))
        ((hfits x).mp hx)
      obtain ⟨t, ht, hregs, hmmu, -⟩ := probe_completes (rd := rd) hs hk hz
      rw [hfound] at hregs hmmu
      exact ⟨t, ht, hregs, hmmu⟩
    case tables =>
      intro root table place et delivers struck unreadable
      have hmmu := pdcEvict_empty hpdc
      have hnone : (pdcEvict s).mmu.pdc = [] := by rw [hmmu, hpdc]
      have hunreadable (i : Nat) :
          unreadable i ↔ TableStruck (pdcEvict s) .first i ∨
            tableReadable (pdcEvict s).cfg (tablePlace (pdcEvict s) va e i) = false := by
        refine or_congr_left ⟨fun h => .inr ⟨rfl, h⟩, ?_⟩
        rintro (⟨h, -⟩ | ⟨-, h⟩)
        · cases h
        · exact h
      have hholds {i : Nat} (hr : ¬unreadable i) (hw : wordAt s (place i) = e i) : EntryHolds (pdcEvict s) .first va e i :=
        .inr ⟨pdcPtd_empty hnone i, mt (hunreadable i).mpr hr, hw⟩
      obtain ⟨t, ht, hregs, htmmu, -, -, hrest⟩ := probe_completes (rd := rd) hs hk hz
      refine ⟨fun k hk3 hkind' hrow hu => ?_, fun k hk3 hrow hptd => ?_⟩
      · have hp := probe_unreadable hnone hk3 (fun i hi => ⟨hholds (hrow i hi).1 (hrow i hi).2.1, (hrow i hi).2.2⟩) hkind'
          (readEntry_unreadable (pdcPtd_empty hnone k) ((hunreadable k).mp hu))
        rw [hp] at hregs htmmu
        refine ⟨t, ht, hregs, ?_, hrest⟩
        rw [htmmu, ← hmmu]
        exact (recordFault_recorded ..).1
      · obtain ⟨hat, habove, hall⟩ := probe_delivers hnone hk3
          (fun i hi => ⟨hholds (hrow i hi.le).1 (hrow i hi.le).2, hptd i hi⟩) (hholds (hrow k le_rfl).1 (hrow k le_rfl).2).read
        have hdelivers {v : Word} (h : (probeCached (pdcEvict s) .first va).1 = v) : delivers v := by
          rw [h] at hregs
          exact ⟨t, ht, hregs⟩
        exact ⟨fun h => hdelivers (hat h), fun h he => hdelivers (habove h he), fun h =>
          ⟨fun he => hdelivers ((hall h).1 he), fun he => hdelivers ((hall h).2 he)⟩⟩

end Sys2Proof.Machine
end

section
/-! The machine checks that the environment presents between instructions, on a fetch and on a data access
(60_exceptions.md R721 to R723, R727, R731, R732, R734; log 26). -/

namespace Sys2Proof.Machine

/-! ### Checks presented on an access behind which no MMU stands -/

/-- A route behind which no MMU records an error: to a physical address, or to a device. -/
def Plain (r : Route) : Prop := (∃ asi pa, r = .memory asi pa false) ∨ ∃ asi, r = .device asi

section
variable {s : State} {k : AccessKind} {t : Trap} {r : Route}

theorem presented_error (h : errorPresented s k = true) : presented s k = some (accessError k) := if_pos h

theorem presented_exception (he : errorPresented s k = false) (h : exceptionPresented s k = true) :
    presented s k = some (accessException k) := by
  rw [presented, he, h]
  rfl

theorem presented_some (h : presented s k = some t) :
    errorPresented s k = true ∧ t = accessError k ∨
      errorPresented s k = false ∧ exceptionPresented s k = true ∧ t = accessException k := by
  unfold presented at h
  split at h
  · next he => exact .inl ⟨he, (Option.some.inj h).symm⟩
  · next he =>
    split at h
    · next hx => exact .inr ⟨Bool.eq_false_iff.mpr he, hx, (Option.some.inj h).symm⟩
    · cases h

theorem readAt_presented (hr : Plain r) (h : presented s k = some t) (va : Word) (z : Size) :
    readAt s k r va z = .fault t s := by
  rcases hr with ⟨asi, pa, rfl⟩ | ⟨asi, rfl⟩
  · rcases presented_some h with ⟨he, rfl⟩ | ⟨he, hx, rfl⟩
    · exact if_pos he
    · exact (if_neg (ne_true_of_eq_false he)).trans (if_pos hx)
  · simp only [readAt, deviceRead, h]

theorem writeAt_presented (hr : Plain r) (h : presented s k = some t) (va v : Word) (z : Size) :
    writeAt s k r va v z = .fault t s := by
  rcases hr with ⟨asi, pa, rfl⟩ | ⟨asi, rfl⟩
  · rcases presented_some h with ⟨he, rfl⟩ | ⟨he, hx, rfl⟩
    · exact if_pos he
    · exact (if_neg (ne_true_of_eq_false he)).trans (if_pos hx)
  · simp only [writeAt, deviceWrite, h]

end

/-! ### Between two instructions, and on a fetch -/

section
variable {s : State} {x : MachineCheck}

theorem executeCycle_presented (hnow : s.now = { Inputs.quiet with machineCheck := some x }) :
    (∀ t, interruptingTrap s = some t → executeCycle s = .ended (.next (takeTrap t s))) ∧
      (interruptingTrap s = none → executeCycle s = fetchCycle (turn s)) := by
  have hwork : cpDefers (fpEndWork s.now.fpuEnds s) = s := unitsWork_none (by rw [hnow]; rfl) (by rw [hnow]; rfl)
  have hreset : s.now.resetIn = false := by rw [hnow]; rfl
  refine ⟨fun t ht => ?_, fun ht => ?_⟩
  · unfold executeCycle
    simp only [hreset, Bool.false_eq_true, if_false, hwork, ht]
  · unfold executeCycle
    simp only [hreset, Bool.false_eq_true, if_false, hwork, ht]

/-- A step that an interrupting machine check ends. -/
theorem step_interrupted (hmode : s.mode = .execute) (hnow : (takeInputs s).now = { Inputs.quiet with machineCheck := some x })
    {t : Trap} (ht : interruptingTrap (takeInputs s) = some t) : Traps (step s) t (takeInputs s) :=
  step_of_ended ((prepare_execute hmode).trans ((executeCycle_presented hnow).1 t ht))

/-- A step whose fetch meets a machine check. -/
theorem step_fetchStruck (hmode : s.mode = .execute) (hnow : (takeInputs s).now = { Inputs.quiet with machineCheck := some x })
    (ha : s.annul = false) (hi : interruptingTrap (takeInputs s) = none) {t : Trap} {u : State}
    (hf : fetch (turn (takeInputs s)) = .fault t u) : Traps (step s) t u := by
  refine step_of_ended ((prepare_execute hmode).trans (((executeCycle_presented hnow).2 hi).trans ?_))
  rw [fetchCycle, turn_annul, show (takeInputs s).annul = false from ha, hf]
  rfl

theorem fetch_presented {t : Trap} (hm : missPresented s .fetch = none) (ht : translating s = false)
    (h : presented s .fetch = some t) : fetch s = .fault t s := by
  unfold fetch
  rw [route_plain s .fetch (fetchAsi s) s.pc false hm (fetchAsi_architectural s) ht]
  simp only [MemRes.andThen, readAt_presented (.inl ⟨_, _, rfl⟩) h]

theorem route_miss {k : AccessKind} {t : Trap} (h : missPresented s k = some t) (asi : BitVec 8) (va : Word) (store : Bool) :
    route s k asi va store = .fault t s := by
  unfold route
  simp only [h]

theorem fetch_miss {t : Trap} (h : missPresented s .fetch = some t) : fetch s = .fault t s := by
  unfold fetch
  rw [route_miss h]
  rfl

end

/-! ### The first access of an instruction -/

/-- Does the environment present an error or an exception on the first or the second access. -/
def PresentsData (s : State) (second : Bool) (t : Trap) : Prop :=
  t = .dataAccessError ∧ s.now.machineCheck = some (.dataAccessError second) ∨
    t = .dataAccessException ∧ s.now.machineCheck = some (.dataAccessException second)

/-- Does the environment present an MMU miss on the first access; the Reference MMU has none. -/
def PresentsMiss (s : State) (t : Trap) : Prop :=
  t = .dataAccessMmuMiss ∧ s.now.machineCheck = some .dataAccessMmuMiss ∧ s.cfg.mmuPresent = false

/-- Is an address space untranslated: a device's, or one of memory behind which no MMU stands. -/
def Untranslated (s : State) (asi : BitVec 8) : Prop :=
  asiKind s.cfg asi = .device ∨ asiKind s.cfg asi = .normal ∧ translating s = false ∨
    ∃ upper passThrough, asiKind s.cfg asi = .physical upper passThrough ∧ (passThrough = true → translating s = false)

section
variable {s : State} {t : Trap}

theorem PresentsData.miss {second : Bool} (h : PresentsData s second t) (k : AccessKind) (hk : k ≠ .fetch) :
    missPresented s k = none := by
  have hne : s.now.machineCheck ≠ some .dataAccessMmuMiss := by rcases h with ⟨-, h⟩ | ⟨-, h⟩ <;> simp [h]
  unfold missPresented
  cases k with
  | fetch => exact absurd rfl hk
  | first => simp [hne]
  | second => simp

theorem PresentsData.presented_first (h : PresentsData s false t) : presented s .first = some t := by
  rcases h with ⟨rfl, h⟩ | ⟨rfl, h⟩
  · exact presented_error (by simp [errorPresented, h])
  · exact presented_exception (by simp [errorPresented, h]) (by simp [exceptionPresented, h])

theorem PresentsData.presented_second (h : PresentsData s true t) : presented s .second = some t := by
  rcases h with ⟨rfl, h⟩ | ⟨rfl, h⟩
  · exact presented_error (by simp [errorPresented, h])
  · exact presented_exception (by simp [errorPresented, h]) (by simp [exceptionPresented, h])

theorem PresentsData.quiet_first (h : PresentsData s true t) : AccessQuiet s .first := by
  refine ⟨h.miss .first (by decide), ?_⟩
  rcases h with ⟨-, h⟩ | ⟨-, h⟩ <;> simp [errorPresented, exceptionPresented, h]

theorem route_untranslated {k : AccessKind} {asi : BitVec 8} (hm : missPresented s k = none) (hu : Untranslated s asi)
    (va : Word) (store : Bool) : ∃ r, route s k asi va store = .ok r s ∧ Plain r := by
  unfold route
  simp only [hm]
  rcases hu with hd | ⟨hn, ht⟩ | ⟨upper, pass, hp, ht⟩
  · exact ⟨_, by simp only [hd]; rfl, .inr ⟨_, rfl⟩⟩
  · exact ⟨_, by simp only [hn, ht]; rfl, .inl ⟨_, _, rfl⟩⟩
  · have hmmu : (pass && translating s) = false := by
      cases pass
      · rfl
      · exact ht rfl
    exact ⟨_, by simp only [hp, hmmu]; rfl, .inl ⟨_, _, rfl⟩⟩

/-- An access whose first part meets a machine check, in the state in which it is made. -/
def Struck (m : MemRes Route) (t : Trap) (u : State) : Prop :=
  m = .fault t u ∨ ∃ r, m = .ok r u ∧ Plain r ∧ presented u .first = some t

theorem route_struck {asi : BitVec 8} (h : PresentsData s false t ∨ PresentsMiss s t) (hu : Untranslated s asi) (va : Word)
    (store : Bool) : Struck (route s .first asi va store) t s := by
  rcases h with h | ⟨rfl, hc, hm⟩
  · obtain ⟨r, hr, hp⟩ := route_untranslated (h.miss .first (by decide)) hu va store
    exact .inr ⟨r, hr, hp, h.presented_first⟩
  · exact .inl (route_miss (by simp [missPresented, hm, hc]) ..)

variable {m : MemRes Route} {u : State}

theorem Struck.read (h : Struck m t u) (va : Word) (z : Size) : (m.andThen fun r s => readAt s .first r va z) = .fault t u := by
  rcases h with rfl | ⟨r, rfl, hp, hx⟩
  · rfl
  · exact readAt_presented hp hx va z

theorem Struck.read_bind (h : Struck m t u) (va : Word) (z : Size) (f : Route → Word → State → Res) :
    (m.bind fun r s => (readAt s .first r va z).bind (f r)) = .trap t u := by
  rcases h with rfl | ⟨r, rfl, hp, hx⟩
  · rfl
  · show (readAt u .first r va z).bind _ = _
    rw [readAt_presented hp hx]
    rfl

theorem Struck.write (h : Struck m t u) (va v : Word) (z : Size) :
    (m.andThen fun r s => writeAt s .first r va v z) = .fault t u := by
  rcases h with rfl | ⟨r, rfl, hp, hx⟩
  · rfl
  · exact writeAt_presented hp hx va v z

theorem memRead_struck {asi : BitVec 8} (h : PresentsData s false t ∨ PresentsMiss s t) (hu : Untranslated s asi) (va : Word)
    (z : Size) : memRead s .first asi va z = .fault t s := (route_struck h hu va false).read va z

theorem memWrite_struck {asi : BitVec 8} (h : PresentsData s false t ∨ PresentsMiss s t) (hu : Untranslated s asi)
    (va v : Word) (z : Size) : memWrite s .first asi va v z = .fault t (clearBarrier s) :=
  (route_struck (s := clearBarrier s) h hu va true).write va v z

/-! ### A floating-point load that meets a machine check -/

/-- What a floating-point load whose access raises an exception leaves in its destinations (40_load_store.md R335). -/
def faultLeaves (t : Trap) (dests : List RegNum) (s : State) : State :=
  if t = .dataAccessException then dests.foldl faultedFreg s else s

/-- The registers that an exception of a floating-point load writes, with what it writes. -/
def faultedRegs (t : Trap) (c : Config) (dests : List RegNum) : List (RegNum × Word) :=
  match t, c.fpLoadFaultValue with
  | .dataAccessException, some v => dests.map fun n => (n, v)
  | _, _ => []

theorem fpBind_fault {α : Type} (dests : List RegNum) (f : α → State → Res) :
    fpBind (.fault t u) dests f = .trap t (faultLeaves t dests u) := by
  cases t <;> rfl

theorem faultedRegs_other {c : Config} {dests : List RegNum} (h : t ≠ .dataAccessException) : faultedRegs t c dests = [] := by
  unfold faultedRegs
  split
  · exact absurd rfl h
  · rfl

theorem faultedRegs_nil (t : Trap) (c : Config) : faultedRegs t c [] = [] := by
  unfold faultedRegs
  split
  · rfl
  · rfl

theorem faultLeaves_written (t : Trap) (dests : List RegNum) (s : State) :
    FregsWritten s (faultLeaves t dests s) (faultedRegs t s.cfg dests) ∧
      faultLeaves t dests s = { s with fregs := (faultLeaves t dests s).fregs } := by
  by_cases h : t = .dataAccessException
  · subst h
    obtain ⟨hrest, hval⟩ := faultedFregs_written s dests
    rw [faultLeaves, if_pos rfl]
    refine ⟨?_, hrest⟩
    unfold faultedRegs
    cases hv : s.cfg.fpLoadFaultValue with
    | none => rwa [hv] at hval
    | some v => rwa [hv] at hval
  · rw [faultLeaves, if_neg h, faultedRegs_other h]
    exact ⟨FregsWritten.refl s, rfl⟩

/-- A doubleword load whose second word meets the check has the first in its register, unless both are written over. -/
theorem faultLeaves_second (t : Trap) (n m : RegNum) (w : Word) (s : State) :
    (faultedRegs t s.cfg [n, m] = [] → FregsWritten s (faultLeaves t [n, m] (setFreg s n w)) [(n, w)]) ∧
      (faultedRegs t s.cfg [n, m] ≠ [] →
        FregsWritten s (faultLeaves t [n, m] (setFreg s n w)) (faultedRegs t s.cfg [n, m])) ∧
        faultLeaves t [n, m] (setFreg s n w) = { s with fregs := (faultLeaves t [n, m] (setFreg s n w)).fregs } := by
  obtain ⟨⟨hval, hother⟩, hrest⟩ := faultLeaves_written t [n, m] (setFreg s n w)
  have hfirst : FregsWritten s (setFreg s n w) [(n, w)] := (FregsWritten.refl s).snoc n w fun _ hx => absurd hx List.not_mem_nil
  refine ⟨fun hx => ?_, fun hx => ⟨hval, fun k hk => (hother k hk).trans (freg_setFreg_ne s n k w ?_)⟩, hrest⟩
  · have hsame (k : RegNum) : freg (faultLeaves t [n, m] (setFreg s n w)) k = freg (setFreg s n w) k :=
      hother k (by rw [show faultedRegs t (setFreg s n w).cfg [n, m] = [] from hx]; exact fun x hx => absurd hx List.not_mem_nil)
    exact ⟨fun x hx => (hsame x.1).trans (hfirst.1 x hx), fun k hk => (hsame k).trans (hfirst.2 k hk)⟩
  · rintro rfl
    unfold faultedRegs at hx hk
    split at hx
    · next v hv =>
      simp only [hv] at hk
      exact hk (k, v) List.mem_cons_self rfl
    · exact hx rfl

theorem Struck.read_fpBind (h : Struck m t u) (va : Word) (z : Size) (dests : List RegNum)
    (f : Route → Word → State → Res) :
    (fpBind m dests fun r s => fpBind (readAt s .first r va z) dests (f r)) = .trap t (faultLeaves t dests u) := by
  rcases h with rfl | ⟨r, rfl, hp, hx⟩
  · exact fpBind_fault ..
  · show fpBind (readAt u .first r va z) dests _ = _
    rw [readAt_presented hp hx]
    exact fpBind_fault ..

end

/-! ### The second access of an instruction -/

/-- Does an untranslated access reach real memory at a physical address. -/
def RealAt (s : State) (asi : BitVec 8) (va : Word) (pa : Nat) : Prop :=
  Untranslated s asi ∧ plainPa s asi va = some pa ∧ regionKind s.cfg (decodedAsi s.cfg asi) pa = .realMemory

section
variable {s : State} {asi : BitVec 8} {va : Word} {pa : Nat} {t : Trap}

theorem RealAt.route {k : AccessKind} (h : RealAt s asi va pa) (hm : missPresented s k = none) (store : Bool) :
    Machine.route s k asi va store = .ok (.memory (decodedAsi s.cfg asi) pa false) s ∧
      locationKind s (decodedAsi s.cfg asi) va pa = .realMemory := by
  obtain ⟨hu, hp, hk⟩ := h
  unfold Machine.route
  unfold plainPa at hp
  simp only [hm]
  rcases hu with hd | ⟨hn, ht⟩ | ⟨upper, pass, hph, ht⟩
  · simp only [hd, reduceCtorEq] at hp
  · simp only [hn, ht, Bool.false_eq_true, if_false, Option.some.injEq] at hp
    subst hp
    exact ⟨by simp only [hn, ht]; rfl, (locationKind_plain _ _ _ _ ht).trans hk⟩
  · simp only [hph, Option.some.injEq] at hp
    subst hp
    have hmmu : (pass && translating s) = false := by
      cases pass
      · rfl
      · exact ht rfl
    exact ⟨by simp only [hph, hmmu], (locationKind_other _ _ _ _ (decodedAsi_physical hph)).trans hk⟩

theorem readAt_real {k : AccessKind} {a : BitVec 8} {mmu : Bool} (hq : AccessQuiet s k)
    (hk : locationKind s a va pa = .realMemory) (z : Size) :
    readAt s k (.memory a pa mmu) va z = .ok (s.mem.read pa z) s := by
  obtain ⟨-, he, hx⟩ := hq
  simp only [readAt, physicalRead, he, hx, hk, Bool.false_eq_true, if_false]

theorem writeAt_real {k : AccessKind} {a : BitVec 8} {mmu : Bool} (hq : AccessQuiet s k)
    (hk : locationKind s a va pa = .realMemory) (v : Word) (z : Size) :
    writeAt s k (.memory a pa mmu) va v z = .ok () (storeAt s va pa v z) := by
  obtain ⟨-, he, hx⟩ := hq
  simp only [writeAt, physicalWrite, he, hx, hk, Bool.false_eq_true, if_false]

variable (h : PresentsData s true t) (hr : RealAt s asi va pa)
include h hr

/-- The write of an atomic meets the check behind its read. -/
theorem atomic_secondStruck {z : Size} (ha : va.toNat % z.alignment = 0) (hb : s.blockByte = false)
    (hw : s.blockWord = false) (v : Word) (rd : RegNum) : atomic s asi va z v rd = .trap t (clearBarrier s) := by
  obtain ⟨hroute, hk⟩ := hr.route (h.miss .first (by decide)) false
  have hread : memRead s .first asi va z = .ok (s.mem.read pa z) s := by
    rw [memRead, hroute]
    exact readAt_real h.quiet_first hk z
  have hwrite : memWrite s .second asi va v z = .fault t (clearBarrier s) := by
    rw [memWrite, writeRoute, (RealAt.route (s := clearBarrier s) (k := .second) hr (h.miss .second (by decide)) true).1]
    exact writeAt_presented (s := clearBarrier s) (k := .second) (t := t) (.inl ⟨_, _, rfl⟩) h.presented_second va v z
  rw [atomic, aligned_of_mod _ ha, if_neg (by simp [hb, hw]), hread]
  show (memWrite s .second asi va v z).bind _ = _
  rw [hwrite]
  rfl

/-- The second word of a doubleword load meets the check behind the first, whatever is done with that. -/
theorem readSecond_struck {u : State} (hu : u.now = s.now) :
    ∃ r, route s .first asi va false = .ok r s ∧ readAt s .first r va .dword = .ok (wordAt s pa) s ∧
      readAt u .second r.next (va + 4#32) .dword = .fault t u := by
  obtain ⟨hroute, hk⟩ := hr.route (h.miss .first (by decide)) false
  have hx : presented u .second = some t := by
    rw [← h.presented_second, presented, presented, errorPresented, exceptionPresented, errorPresented,
      exceptionPresented, hu]
  exact ⟨_, hroute, readAt_real h.quiet_first hk .dword, readAt_presented (.inl ⟨_, _, rfl⟩) hx _ _⟩

theorem loadPair_secondStruck (ha : va.toNat % Size.dword.alignment = 0) (rd : RegNum) :
    loadPair s asi va rd = .trap t (setReg s (evenReg rd) (wordAt s pa)) := by
  obtain ⟨r, hroute, hfirst, hsecond⟩ := readSecond_struck h hr (u := setReg s (evenReg rd) (wordAt s pa)) (setRegIn_now ..)
  rw [loadPair, aligned_of_mod _ ha, hroute]
  show (readAt s .first r va .dword).bind _ = _
  rw [hfirst]
  show (readAt (setReg s (evenReg rd) (wordAt s pa)) .second r.next (va + 4#32) .dword).bind _ = _
  rw [hsecond]
  rfl

theorem fpReadPair_secondStruck (n : RegNum) (dests : List RegNum) (f : Word → State → Res) :
    (fpBind (route s .first asi va false) dests fun r s =>
      fpBind (readAt s .first r va .dword) dests fun v s =>
        fpBind (readAt (setFreg s n v) .second r.next (va + 4#32) .dword) dests f) =
      .trap t (faultLeaves t dests (setFreg s n (wordAt s pa))) := by
  obtain ⟨r, hroute, hfirst, hsecond⟩ := readSecond_struck h hr (u := setFreg s n (wordAt s pa)) rfl
  rw [hroute]
  show fpBind (readAt s .first r va .dword) dests _ = _
  rw [hfirst]
  show fpBind (readAt (setFreg s n (wordAt s pa)) .second r.next (va + 4#32) .dword) dests f = _
  rw [hsecond]
  exact fpBind_fault ..

theorem storeTwo_secondStruck (v w : Word) (f : State → Res) :
    storeTwo s asi va v w f = .trap t (storeAt (clearBarrier s) va pa v .dword) := by
  obtain ⟨hroute, hk⟩ := RealAt.route (s := clearBarrier s) hr (k := .first) (h.miss .first (by decide)) true
  have hx : presented (storeAt (clearBarrier s) va pa v .dword) .second = some t := by
    rw [storeAt_rest]
    exact h.presented_second
  rw [storeTwo, writeRoute, hroute]
  show (writeAt (clearBarrier s) .first _ va v .dword).bind _ = _
  rw [writeAt_real (s := clearBarrier s) (k := .first) h.quiet_first hk]
  have hsecond : writeAt (storeAt (clearBarrier s) va pa v .dword) .second
      (Route.next (.memory (decodedAsi s.cfg asi) pa false)) (va + 4#32) w .dword =
        .fault t (storeAt (clearBarrier s) va pa v .dword) := writeAt_presented (.inl ⟨_, _, rfl⟩) hx _ _ _
  exact congrArg (fun m : MemRes Unit => m.bind fun _ x => f x) hsecond

end

end Sys2Proof.Machine
end

section
/-! The machine checks as the instructions meet them (60_exceptions.md sections 1, 2 and 4). -/

namespace Sys2Proof.Machine

/-- A step between two instructions or on a fetch, by the machine check presented. -/
theorem step_machineCheck {s : State} {x : MachineCheck} (hmode : s.mode = .execute)
    (hnow : (takeInputs s).now = { Inputs.quiet with machineCheck := some x }) :
    let u := takeInputs s
    (∀ t, (effectivePsr u).et = true → (x = .dataStoreError ∧ t = .dataStoreError ∨
        ∃ n, x = .implementationDependent n ∧ t = .implementationDependent n) → Traps (step s) t u) ∧
      (s.annul = false → translating s = false → ∀ t,
        (x = .instructionAccessError ∧ t = .instructionAccessError ∨
          x = .instructionAccessException ∧ t = .instructionAccessException ∨
            x = .instructionAccessMmuMiss ∧ s.cfg.mmuPresent = false ∧ t = .instructionAccessMmuMiss) →
          Traps (step s) t (turn u)) := by
  have hm : (takeInputs s).now.machineCheck = some x := by rw [hnow]
  have hirl : (takeInputs s).now.irl = 0#4 := by rw [hnow]; rfl
  refine ⟨fun t het hx => step_interrupted hmode hnow ?_, fun ha ht t hx => ?_⟩
  · unfold interruptingTrap
    rw [if_pos het, hm]
    rcases hx with ⟨rfl, rfl⟩ | ⟨n, rfl, rfl⟩
    · rfl
    · rfl
  have htm : (turn (takeInputs s)).now.machineCheck = some x := by rw [turn_now, hm]
  have htt : translating (turn (takeInputs s)) = false := (turn_translating _).trans ht
  have hnone : interruptingTrap (takeInputs s) = none := by
    unfold interruptingTrap interruptTaken
    rcases hx with ⟨rfl, -⟩ | ⟨rfl, -⟩ | ⟨rfl, -⟩
    all_goals simp only [hm, hirl, irl_zero_not_taken, Bool.and_false, Bool.false_eq_true, if_false, ite_self]
  have hcfg : (turn (takeInputs s)).cfg = s.cfg := turn_cfg _
  refine step_fetchStruck hmode hnow ha hnone ?_
  generalize turn (takeInputs s) = v at htm htt hcfg ⊢
  rcases hx with ⟨rfl, rfl⟩ | ⟨rfl, rfl⟩ | ⟨rfl, hp, rfl⟩
  · exact fetch_presented (by simp [missPresented, htm]) htt (presented_error (by simp [errorPresented, htm]))
  · exact fetch_presented (by simp [missPresented, htm]) htt
      (presented_exception (by simp [errorPresented, htm]) (by simp [exceptionPresented, htm]))
  · exact fetch_miss (by simp [missPresented, htm, hcfg, hp])

theorem trapType_implementationDependent (n : BitVec 5) :
    trapType (.implementationDependent n) = 0x60#8 + n.setWidth 8 := by
  decide +revert

/-! ### The doubleword stores come to their two writes -/

/-- The instruction comes to the two writes of a doubleword, of which this is the first word. -/
def StoresTwo (s : State) (i : Instr) (asi : BitVec 8) (a v : Word) : Prop :=
  ∃ w f, exec i s = (storeTwo s asi a v w f).out

section
variable {s : State} {i : Instr} {asi : BitVec 8} {a v : Word} {t : Trap}

theorem StoresTwo.fails {u : State} (hi : StoresTwo s i asi a v) (h : memWrite s .first asi a v .dword = .fault t u) :
    Traps (exec i s) t u := by
  obtain ⟨w, f, hi⟩ := hi
  exact hi.trans (congrArg Res.out (storeTwo_fails h w f))

theorem StoresTwo.secondFails {pa : Nat} (hi : StoresTwo s i asi a v) (h : PresentsData s true t) (hr : RealAt s asi a pa) :
    Traps (exec i s) t (storeAt (clearBarrier s) a pa v .dword) := by
  obtain ⟨w, f, hi⟩ := hi
  exact hi.trans (congrArg Res.out (storeTwo_secondStruck h hr v w f))

theorem std_storesTwo {rd : RegNum} (he : s.cfg.oddRdLddTraps = false ∨ rd.toNat % 2 = 0) (ha : a.toNat % 8 = 0)
    (hi : exec i s = (evenRd s rd (storePair s asi a rd)).out) : StoresTwo s i asi a (reg s (evenReg rd)) :=
  ⟨_, _, hi.trans (congrArg Res.out ((evenRd_even _ he).trans (aligned_of_mod (size := .dword) _ ha)))⟩

end

section
variable {s : State} {rd rs1 : RegNum} {o : Operand2} (ha : (effectiveAddress s rs1 o).toNat % 8 = 0)

section
variable (hef : efOn s = true) (hm : ∀ r, s.fpuMode ≠ .pending r) (hq : s.fpuQueue = [])
include ha hef hm hq

theorem stdf_storesTwo (he : s.cfg.misalignedFregTraps = false ∨ rd.toNat % 2 = 0) :
    StoresTwo s (.stdf rd rs1 o) (dataAsi s) (effectiveAddress s rs1 o) (freg s (evenReg rd)) :=
  ⟨_, _, congrArg Res.out (fpStoreDouble_ready hef hm ha he (independent_of_empty hq _) _)⟩

theorem stdfq_storesTwo (hs : s.psr.s = true) (hp : s.cfg.fqPresent = true) {e : FqEntry} {rest : List FqEntry}
    (he : s.fq = e :: rest) :
    StoresTwo s (.stdfq rs1 o) (dataAsi s) (effectiveAddress s rs1 o) e.address := by
  refine ⟨e.instruction, fun s => .done (advance (popFq s)), ?_⟩
  refine (exec_supervisor hs rfl).trans (congrArg Res.out ((fpStore_ready hef hm ha (independent_of_empty hq _) _).trans ?_))
  rw [hp, he]

end

section
variable (hec : ecOn s = true) (hp : s.cpPending = false) (hx : s.now.cpException = false)
include ha hec hp hx

theorem stdc_storesTwo :
    StoresTwo s (.stdc rd rs1 o) (dataAsi s) (effectiveAddress s rs1 o) (Config.cpData (.storeDouble rd) s.cp).1 :=
  ⟨_, _, congrArg Res.out (cp_ready hec ha hp hx _ _)⟩

/-- The coprocessor may take the first word of LDDC whose second meets a check. -/
theorem lddc_secondStruck {t : Trap} {pa : Nat} (h : PresentsData s true t)
    (hr : RealAt s (dataAsi s) (effectiveAddress s rs1 o) pa) :
    Traps (exec (.lddc rd rs1 o) s) t (cpDoes s (.loadFirst rd (wordAt s pa))) := by
  obtain ⟨r, hroute, hfirst, hsecond⟩ := readSecond_struck h hr (u := s) rfl
  show exec (.lddc rd rs1 o) s = (Res.trap t (cpDoes s (.loadFirst rd (wordAt s pa)))).out
  refine congrArg Res.out ((cp_ready hec ha hp hx _ _).trans ?_)
  rw [hroute]
  show (readAt s .first r (effectiveAddress s rs1 o) .dword).bind _ = _
  rw [hfirst]
  simp only [MemRes.bind, hsecond]

theorem stdcq_storesTwo (hs : s.psr.s = true) (hc : s.cfg.cqPresent = true) {e : Word × Word} {rest : List (Word × Word)}
    (he : s.cp.cq = e :: rest) : StoresTwo s (.stdcq rs1 o) (dataAsi s) (effectiveAddress s rs1 o) e.1 := by
  refine ⟨e.2, fun s => .done (advance { cpDoes s .storeQueue with cp := { (cpDoes s .storeQueue).cp with cq := rest } }), ?_⟩
  refine (exec_supervisor hs rfl).trans (congrArg Res.out ((cpEnabled_on _ hec).trans
    ((aligned_of_mod _ ha).trans ((cpProvokes_none _ hp).trans ?_))))
  rw [hc, he]
  exact cpAccepted_none _ _ hp hx

end

end

/-- Settles O60. -/
theorem machineChecks : Obligations.MachineChecks := by
  refine ⟨fun s x hmode hnow => ?between, fun s rd rs1 rs2 o asi t => ?accesses⟩
  case between =>
    intro u between
    obtain ⟨hinterrupt, hfetch⟩ := step_machineCheck hmode hnow
    refine ⟨fun hx => ⟨fun het => ⟨hinterrupt _ het (.inl ⟨hx, rfl⟩), rfl⟩, fun het => if_neg (ne_true_of_eq_false het)⟩,
      fun n hx => ⟨fun het => ⟨hinterrupt _ het (.inr ⟨n, hx, rfl⟩), trapType_implementationDependent n⟩,
        fun het => if_neg (ne_true_of_eq_false het)⟩, fun ha ht => ?_⟩
    intro fails
    exact ⟨fun hx => ⟨hfetch ha ht _ (.inl ⟨hx, rfl⟩), rfl⟩, fun hx => ⟨hfetch ha ht _ (.inr (.inl ⟨hx, rfl⟩)), rfl⟩,
      fun hx hp => ⟨hfetch ha ht _ (.inr (.inr ⟨hx, hp, rfl⟩)), rfl⟩⟩
  case accesses =>
    intro data address alt altAddress x on miss even odd evenRd evenF free fpu fpuLoads cp untranslated stored fails first
      faulted fpLoads realAt secondLoad secondStore
    refine ⟨⟨rfl, rfl, rfl⟩, fun h => ?first, fun h pa => ?second⟩
    case first =>
      have h : PresentsData s false t ∨ PresentsMiss s t := h
      have load {sp : BitVec 8} {a : Word} {z : Size} {i : Instr} {e : Word → Word} (hu : Untranslated s sp)
          (ha : a.toNat % z.alignment = 0) (hi : exec i s = (loadInt s sp a z e rd).out) : fails i s :=
        hi.trans (congrArg Res.out (loadInt_fails ha (memRead_struck h hu a z) e rd))
      have store {sp : BitVec 8} {a v : Word} {z : Size} {i : Instr} (hu : Untranslated s sp)
          (ha : a.toNat % z.alignment = 0) (hi : exec i s = (storeInt s sp a z v).out) : fails i stored :=
        hi.trans (congrArg Res.out (storeInt_fails ha (memWrite_struck h hu a v z)))
      have atom {sp : BitVec 8} {a v : Word} {z : Size} {i : Instr} (hu : Untranslated s sp)
          (ha : a.toNat % z.alignment = 0) (hf : free) (hi : exec i s = (atomic s sp a z v rd).out) : fails i s :=
        hi.trans (congrArg Res.out (atomic_fails ha hf.1 hf.2 (memRead_struck h hu a z) v rd))
      have pair {sp : BitVec 8} {a : Word} {i : Instr} (hu : Untranslated s sp) (ha : a.toNat % 8 = 0) (hev : evenRd)
          (hi : exec i s = (Machine.evenRd s rd (loadPair s sp a rd)).out) : fails i s :=
        hi.trans (congrArg Res.out ((evenRd_even _ hev).trans (loadPair_fails ha (memRead_struck h hu a .dword) rd)))
      have two {sp : BitVec 8} {a : Word} {i : Instr} (hu : Untranslated s sp) (ha : a.toNat % 8 = 0) (hev : evenRd)
          (hi : exec i s = (Machine.evenRd s rd (storePair s sp a rd)).out) : fails i stored :=
        hi.trans (congrArg Res.out ((evenRd_even _ hev).trans (storePair_fails ha (memWrite_struck h hu a _ .dword))))
      refine ⟨fun ht => ?data, fun hs hu => ?alternate⟩
      case alternate =>
        have alternate {i : Instr} {r : Res} (hi : exec i s = (privileged s r).out) : exec i s = r.out := exec_supervisor hs hi
        refine ⟨fun h1 => ?_, fun h2 => ?_, fun h4 => ?_, fun hev h8 => ?_⟩
        all_goals simp only [List.forall_mem_cons, List.not_mem_nil, false_imp_iff, implies_true, and_true]
        · exact ⟨⟨load (z := .byte) hu h1 (alternate rfl), load (z := .byte) hu h1 (alternate rfl)⟩,
            store (z := .byte) hu h1 (alternate rfl), fun hf => atom (z := .byte) hu h1 hf (alternate rfl)⟩
        · exact ⟨⟨load (z := .half) hu h2 (alternate rfl), load (z := .half) hu h2 (alternate rfl)⟩,
            store (z := .half) hu h2 (alternate rfl)⟩
        · exact ⟨load (z := .word) hu h4 (alternate rfl), store (z := .word) hu h4 (alternate rfl),
            fun hf => atom (z := .word) hu h4 hf (alternate rfl)⟩
        · exact ⟨pair hu h8 hev (alternate rfl), two hu h8 hev (alternate rfl)⟩
      case data =>
        have hu : Untranslated s (dataAsi s) := .inr (.inl ⟨asiKind_architectural (dataAsi_architectural s), ht⟩)
        refine ⟨fun h1 => ?_, fun h2 => ?_, fun h4 => ?_, fun hev h8 => ?_, fun hf => ?fpStores, fun hf => ?fpLoads,
          fun hc => ?cp⟩
        case fpStores =>
          obtain ⟨hef, hm, hq⟩ := hf
          refine ⟨fun h4 => ?_, fun hev h8 => ?_, fun hs hp hfq h8 => ?_⟩
          all_goals simp only [List.forall_mem_cons, List.not_mem_nil, false_imp_iff, implies_true, and_true, true_and]
          · have fpStore {i : Instr} {depends : FpWork → Bool} {k : State → Res}
                (hi : exec i s = (fpEnabled s (aligned s address .word (fpProvokes s (fpSettled s depends k)))).out)
                (hk : k s = .trap t stored) : fails i stored :=
              hi.trans (congrArg Res.out ((fpStore_ready (z := .word) hef hm h4 (independent_of_empty hq _) _).trans hk))
            refine ⟨fpStore rfl (storeInt_fails (z := .word) h4 (memWrite_struck h hu _ _ _)), fpStore rfl ?_⟩
            show (memWrite s .first (dataAsi s) address (fsrWord s) .word).bind _ = _
            rw [memWrite_struck h hu]
            rfl
          · exact (stdf_storesTwo h8 hef hm hq hev).fails (memWrite_struck h hu _ _ _)
          · obtain ⟨e, rest, he⟩ := List.exists_cons_of_ne_nil hfq
            exact (stdfq_storesTwo h8 hef hm hq hs hp he).fails (memWrite_struck h hu _ _ _)
        case fpLoads =>
          obtain ⟨hr, hq⟩ := hf
          have fpLoad {i : Instr} (dests : List RegNum) (hi : exec i s = (Res.trap t (faultLeaves t dests s)).out) :
              ∃ u, fails i u ∧ FregsWritten s u (faultedRegs t s.cfg dests) ∧ u = { s with fregs := u.fregs } :=
            ⟨_, hi, faultLeaves_written t dests s⟩
          refine ⟨fun h4 => fpLoad [rd] ?_, fun h4 => ?_, fun hev h8 => fpLoad [even, odd] ?_⟩
          · refine congrArg Res.out ((fpLoad_ready hr h4 (independent_of_empty hq _) _).trans ?_)
            rw [show memRead s .first (dataAsi s) (effectiveAddress s rs1 o) .word = _ from memRead_struck h hu _ _]
            exact fpBind_fault ..
          · have hnil := fpLoad (i := .ldfsr rs1 o) [] ?_
            · rwa [faultedRegs_nil] at hnil
            refine congrArg Res.out ((fpLoad_ready hr h4 (independent_of_empty hq _) _).trans ?_)
            rw [show memRead s .first (dataAsi s) (effectiveAddress s rs1 o) .word = _ from memRead_struck h hu _ _]
            exact fpBind_fault ..
          · refine congrArg Res.out ((fpLoadDouble_ready hr h8 hev (independent_of_empty hq _) _).trans ?_)
            rw [show even = evenReg rd from (evenReg_eq rd).symm, show odd = oddReg rd from (oddReg_eq rd).symm]
            exact (route_struck h hu address false).read_fpBind address .dword _ _
        case cp =>
          obtain ⟨hec, hp, hx⟩ := hc
          refine ⟨fun h4 => ?_, fun h8 => ?_, fun hs hcq hne h8 => ?_⟩
          all_goals simp only [List.forall_mem_cons, List.not_mem_nil, false_imp_iff, implies_true, and_true, true_and]
          · have reads (q : CpRequest) (f : Word → State → Res) :
                cpEnabled s (aligned s address .word (cpAccepted s q ((memRead s .first (dataAsi s) address .word).bind f))) =
                  .trap t s := by
              rw [cp_ready hec h4 hp hx, memRead_struck h hu]
              rfl
            have writes (q : CpRequest) (v : Word) (f : Unit → State → Res) :
                cpEnabled s (aligned s address .word (cpAccepted s q
                  ((memWrite s .first (dataAsi s) address v .word).bind f))) = .trap t stored := by
              rw [cp_ready hec h4 hp hx, memWrite_struck h hu]
              rfl
            exact ⟨⟨congrArg Res.out (reads _ _), congrArg Res.out (reads _ _)⟩, congrArg Res.out (writes _ _ _),
              congrArg Res.out (writes _ _ _)⟩
          · exact ⟨congrArg Res.out ((cp_ready hec h8 hp hx _ _).trans
              ((route_struck h hu address false).read_bind address .dword _)),
              (stdc_storesTwo h8 hec hp hx).fails (memWrite_struck h hu _ _ _)⟩
          · obtain ⟨e, rest, he⟩ := List.exists_cons_of_ne_nil hne
            exact (stdcq_storesTwo h8 hec hp hx hs hcq he).fails (memWrite_struck h hu _ _ _)
        all_goals simp only [List.forall_mem_cons, List.not_mem_nil, false_imp_iff, implies_true, and_true]
        · exact ⟨⟨load (z := .byte) hu h1 rfl, load (z := .byte) hu h1 rfl⟩, store (z := .byte) hu h1 rfl,
            fun hf => atom (z := .byte) hu h1 hf rfl⟩
        · exact ⟨⟨load (z := .half) hu h2 rfl, load (z := .half) hu h2 rfl⟩, store (z := .half) hu h2 rfl⟩
        · exact ⟨load (z := .word) hu h4 rfl, store (z := .word) hu h4 rfl, fun hf => atom (z := .word) hu h4 hf rfl⟩
        · exact ⟨pair hu h8 hev rfl, two hu h8 hev rfl⟩
    case second =>
      have h : PresentsData s true t := h
      have pair {sp : BitVec 8} {a : Word} {i : Instr} (hr : RealAt s sp a pa) (hev : evenRd)
          (hi : exec i s = (Machine.evenRd s rd (loadPair s sp a rd)).out) : secondLoad a pa i := by
        intro h8
        rw [show even = evenReg rd from (evenReg_eq rd).symm]
        exact ⟨_, hi.trans (congrArg Res.out ((evenRd_even _ hev).trans (loadPair_secondStruck h hr h8 rd))),
          setRegIn_regsWritten .., setRegIn_frame ..⟩
      have two {sp : BitVec 8} {a v : Word} {i : Instr} (hr : RealAt s sp a pa)
          (hi : a.toNat % 8 = 0 → StoresTwo s i sp a v) : secondStore a pa i v := fun h8 =>
        ⟨_, (hi h8).secondFails h hr, write_storesBytes (z := .dword) rfl, copiesKept_storeAt (clearBarrier s) a pa v .dword,
          storeAt_rest ..⟩
      have atom {sp : BitVec 8} {a v : Word} {z : Size} {i : Instr} (hr : RealAt s sp a pa)
          (ha : a.toNat % z.alignment = 0) (hf : free) (hi : exec i s = (atomic s sp a z v rd).out) : fails i stored :=
        hi.trans (congrArg Res.out (atomic_secondStruck h hr ha hf.1 hf.2 v rd))
      have heven : reg s even = reg s (evenReg rd) := by rw [evenReg_eq]
      have hfeven : freg s even = freg s (evenReg rd) := by rw [evenReg_eq]
      refine ⟨fun hr => ⟨fun hf => ?_, fun hev => ?_, fun hf => ?_, fun hf hev h8 => ?_, fun hc => ?_⟩, fun hs hr => ⟨fun hf => ?_, fun hev => ?_⟩⟩
      · exact ⟨atom (z := .byte) hr (Nat.mod_one _) hf rfl, fun h4 => atom (z := .word) hr h4 hf rfl⟩
      · refine ⟨pair hr hev rfl, two hr fun h8 => ?_⟩
        rw [heven]
        exact std_storesTwo hev h8 rfl
      · obtain ⟨hef, hm, hq⟩ := hf
        refine ⟨fun hev => two hr fun h8 => ?_, fun hs hp e rest he => two hr fun h8 => stdfq_storesTwo h8 hef hm hq hs hp he⟩
        rw [hfeven]
        exact stdf_storesTwo h8 hef hm hq hev
      · obtain ⟨hready, hq⟩ := hf
        obtain ⟨hkept, hover, hrest⟩ := faultLeaves_second t even odd (wordAt s pa) s
        have hload : exec (.lddf rd rs1 o) s = (Res.trap t (faultLeaves t [even, odd] (setFreg s even (wordAt s pa)))).out := by
          rw [show even = evenReg rd from (evenReg_eq rd).symm, show odd = oddReg rd from (oddReg_eq rd).symm]
          refine congrArg Res.out ((fpLoadDouble_ready hready h8 hev (independent_of_empty hq _) _).trans ?_)
          exact fpReadPair_secondStruck h hr _ _ _
        refine ⟨_, hload, ?_, hrest⟩
        cases hx : faulted [even, odd] with
        | nil => exact hkept hx
        | cons y ys =>
          have hwritten := hover fun hn => absurd (hx.symm.trans hn) (List.cons_ne_nil _ _)
          rw [show faultedRegs t s.cfg [even, odd] = y :: ys from hx] at hwritten
          exact hwritten
      · obtain ⟨hec, hp, hx⟩ := hc
        refine ⟨fun h8 => ?_, two hr fun h8 => stdc_storesTwo h8 hec hp hx,
          fun hs hcq e rest he => two hr fun h8 => stdcq_storesTwo h8 hec hp hx hs hcq he⟩
        exact lddc_secondStruck h8 hec hp hx h hr
      · have alternate {i : Instr} {r : Res} (hi : exec i s = (privileged s r).out) : exec i s = r.out := exec_supervisor hs hi
        exact ⟨atom (z := .byte) hr (Nat.mod_one _) hf (alternate rfl), fun h4 => atom (z := .word) hr h4 hf (alternate rfl)⟩
      · refine ⟨pair hr hev (exec_supervisor hs rfl), two hr fun h8 => ?_⟩
        rw [heven]
        exact std_storesTwo hev h8 (exec_supervisor hs rfl)

end Sys2Proof.Machine
end
